-- ==== Sys2Proof/Word.lean ====
section
/-! DEFINITION. The plainest word types of the module (R4, R171). -/
namespace Sys2Proof

/-- A byte of memory, of a descriptor or of a message (R4). -/
abbrev Byte := BitVec 8
/-- A register slot of a BAR, 8 bytes (R519). -/
abbrev Reg64 := BitVec 64
/-- A binary32 value by its bits (Table 6-4, format code 0xB). -/
abbrev F32 := BitVec 32
/-- A table with few entries present, by ascending key. -/
abbrev Sparse (α : Type) := List (Nat × α)

end Sys2Proof
end

