-- ==== Sys2Proof/Types.lean ====
section
/-! DEFINITION. The kinds of data that commands carry: engines, descriptor sources, host stores, granules, herd-control
messages, transport packets, sampled straps and the reports of training and memory errors. -/
namespace Sys2Proof

/-- The five engines, in the manual's order (Table 4-1, ENGINE). -/
inductive Engine where
  | pe | ge | se | te | fe
deriving DecidableEq, Repr

/-- The port an accepted descriptor came through: a submission ring's slot, by function (0 the PF, n the VF n), ring and
free-running index (R70, R121), or a management port 0 or 1 (R124). -/
inductive CmdSrc where
  | ring (fn ring index : Nat)
  | mgt (port : Nat)
deriving DecidableEq, Repr

/-- One store of the host to its own memory. `poison` says that a later read of these bytes ends with a poisoned TLP or
an error completion (Table 18-3). -/
structure HostStore where
  addr : Nat
  bytes : List Byte
  poison : Bool
deriving DecidableEq, Repr

/-- A granule: 64 payload bytes and 8 tag bytes (R171). -/
structure Granule where
  payload : List Byte
  tags : List Byte
deriving DecidableEq, Repr

/-- A herd-control message: the common header of Table 2-2 and the 40 body bytes 24 to 63. `srcDev` is the whole 16-bit
field, reserved bits included; `correction` is its 32 bits. -/
structure HerdMsg where
  type : Nat
  version : Nat
  srcDev : Nat
  epoch : Nat
  originTs : Nat
  correction : Nat
  seq : Nat
  body : List Byte
deriving DecidableEq, Repr

/-- A transport packet: the header of Table 16-3, field by field, and its body: granules, or a 16-byte control body. -/
structure Packet where
  op : Nat
  pflags : Nat
  srcDev : Nat
  dstDev : Nat
  ctx : Nat
  len : Nat
  seq : Nat
  epoch : Nat
  tag : Nat
  addr : Nat
  aux : Nat
  status : Nat
  operand : Nat
  granules : List Granule
  control : List Byte
deriving DecidableEq, Repr

/-- The strap fields of the land grid (Table 25-3, R534). -/
structure Straps where
  hallRack : Nat
  tray : Nat
  slot : Nat
  linksplit : Nat
  role : Nat
  bell : Nat
deriving DecidableEq, Repr

/-- How an access to memory failed (R343, R344, R410): an error that the array's code corrected, a parity error that a retry cured, one that four retries did not
cure, an error the stack calls uncorrectable, an uncorrectable SRAM word, an uncorrectable word of the stack-controller or
mesh queue that holds the request (Table 18-4). -/
inductive MemErrKind where
  | corrected | retried | exhausted | stackUe | sramUe | queueUe
deriving DecidableEq, Repr

/-- One failing access, at the granule of a local address. -/
structure MemErr where
  addr : Nat
  kind : MemErrKind
deriving DecidableEq, Repr

/-- An uncorrectable word found in an SRAM array (R410, Tables 18-4 and 18-7), and where: memory by its local address, the
weight banks and the instruction buffer of a core, a copy in the fold cache by its home and address, a directory set by an
address of its stack, the replay buffer of a link, the control die by the structure code of CONTROL_UE. The table of commands
has one row for such words, STORE_SCRUB, and that row carries them all (log entry 75). -/
inductive ArrayUe where
  | memory (addr : Nat)
  | weightBank (e : Engine) (unit : Nat)
  | instrBuffer (e : Engine) (unit : Nat)
  | foldCache (home addr : Nat)
  | directorySet (addr : Nat)
  | replayBuffer (link : Nat)
  | control (code : Nat)
deriving DecidableEq, Repr

/-- One defect that a memory test meets: the granule, the pass it first shows in (Table 21-9), whether the stack reports
it as uncorrectable, and else the byte that reads wrong and what it reads as. -/
structure MemDefect where
  addr : Nat
  pass : Nat
  uncorrectable : Bool
  byteIndex : Nat
  found : Byte
  mismatches : Nat
deriving DecidableEq, Repr

/-- What training found on one link: the peer's 16-byte identity block, the lanes that trained (a mask) and whether the
peer's lanes are reversed (R353, R369). -/
structure LinkReport where
  link : Nat
  block : List Byte
  lanes : Nat
  lrev : Bool
deriving DecidableEq, Repr

/-- What IDE_KM gives a stream: its key, and for a selective stream its address blocks as base and last address (R499). -/
structure IdeKeying where
  key : List Byte
  blocks : List (Nat × Nat)
deriving DecidableEq, Repr

/-- The head of a management message: its reserved byte and TAG (R509). -/
structure MgtHead where
  reserved : Nat
  tag : Nat
deriving DecidableEq, Repr

/-- The outcome of the training of R466. -/
structure TrainReport where
  /-- step 1: an array outside the PE and GE cores cannot be repaired -/
  arrayBad : Bool
  /-- step 1: cores with a word that cannot be repaired -/
  badCores : List (Engine × Nat)
  /-- step 2: channels (stack × 32 + channel) with more failing lanes than spares -/
  badChannels : List Nat
  /-- step 2: spare lanes used, as (stack × 256 + channel, lane number) -/
  spares : List (Nat × Nat)
  /-- step 3: the links that trained -/
  links : List LinkReport
deriving DecidableEq, Repr

end Sys2Proof
end

