-- ==== Sys2Proof/Syntax.lean ====
section
/-! DEFINITION. The commands of the block: one constructor for each of the 177 rows of spec/opcode_table.json, in the
table's order, with the operands that the model gives the row. -/
namespace Sys2Proof

/-- A command of the block. Fleos commands name the accepted descriptor they run (`src`). Events of queues, tiles, links
and timers name the queue, unit, link or object whose turn it is; events that bring something in carry it. -/
inductive Instr where
  -- Fleos commands (file 05)
  | ctxCreate (src : CmdSrc)
  | ctxDestroy (src : CmdSrc)
  | regionMap (src : CmdSrc)
  | regionUnmap (src : CmdSrc)
  | weightLoad (src : CmdSrc)
  | weightReplace (src : CmdSrc)
  | programLoad (src : CmdSrc)
  | programStart (src : CmdSrc)
  | programStop (src : CmdSrc)
  | streamOpen (src : CmdSrc)
  | streamClose (src : CmdSrc)
  | promptSubmit (src : CmdSrc)
  | batchSet (src : CmdSrc)
  | streamAbort (src : CmdSrc)
  | kvSpillPolicy (src : CmdSrc)
  | expertResidency (src : CmdSrc)
  | herdJoin (src : CmdSrc)
  | herdLeave (src : CmdSrc)
  | framePolicy (src : CmdSrc)
  | telemetryRead (src : CmdSrc)
  | attestQuote (src : CmdSrc)
  | recoveryEnter (src : CmdSrc)
  | recoveryExit (src : CmdSrc)
  | memTest (src : CmdSrc) (defects : List MemDefect)
  | powerSet (src : CmdSrc)
  | fence (src : CmdSrc)
  | resume (src : CmdSrc)
  -- host rings (file 03)
  | descriptorIntake (stores : List HostStore)
  | completionRecord (fn ring : Nat)
  | doorbellRead (fn : Nat) (stores : List HostStore)
  | doorbellPoll (stores : List HostStore)
  | ringNudge (fn offset size : Nat) (stores : List HostStore)
  | ringCtrl (fn : Nat) (data : List Byte) (stores : List HostStore)
  | resetWalk (fn : Nat)
  | msixModerationTimer (fn ring : Nat)
  | msixUnmask (fn vector : Nat)
  | functionLevelReset (fn : Nat)
  | vfEnable (enable : Bool) (numVfs : Nat)
  -- queues (file 04)
  | nop (e : Engine) (q : Nat)
  | endList (e : Engine) (q : Nat)
  | frameLoop (e : Engine) (q : Nat)
  | commandStart (e : Engine) (q : Nat)
  | taskIssue (e : Engine) (q : Nat)
  | commandRetire (e : Engine) (q : Nat)
  | fillGroupWrite (ctx program group : Nat)
  -- tile programs (files 06 to 09)
  | tileRun (e : Engine) (unit : Nat)
  | tend (e : Engine) (unit : Nat)
  | load (e : Engine) (unit : Nat) (errs : List MemErr)
  | store (e : Engine) (unit : Nat) (errs : List MemErr)
  | vop (e : Engine) (unit : Nat)
  | mma (e : Engine) (unit : Nat) (mismatches : Nat)
  | taskRepeat (e : Engine) (unit : Nat)
  -- generation (file 09)
  | stepPrep (q : Nat)
  | sample (q : Nat)
  -- routing (file 11)
  | routeSelect (q : Nat)
  | routePlan (q : Nat)
  | routeScatter (q : Nat)
  | routeGather (q : Nat)
  | routeCombine (q : Nat)
  -- Tier Engine (files 10 and 12)
  | copy (q : Nat)
  | replicate (q : Nat)
  | schedule (q : Nat)
  | kvPoolInit (q : Nat)
  | kvAppend (q : Nat)
  | kvGather (q : Nat)
  | kvSpill (ctx : Nat)
  | kvSpillDone (ctx dirSlot page : Nat)
  | kvReturnDone (ctx dirSlot page : Nat)
  | scheduleIssue (ctx program entry : Nat)
  | scheduleTransferDone (xfer : Nat)
  -- Fabric Engine (file 16)
  | get (q : Nat)
  | put (q : Nat)
  | atomic (q : Nat)
  | send (q : Nat)
  | mbox (q : Nat)
  | exchange (q : Nat)
  | routeExchange (q : Nat)
  -- packets (file 16)
  | loadReq (p : Packet)
  | loadResp (p : Packet)
  | storePacket (p : Packet)
  | storeAck (p : Packet)
  | atomicPacket (p : Packet)
  | atomicResp (p : Packet)
  | msg (p : Packet)
  | msgAck (p : Packet)
  | ready (p : Packet)
  | block (p : Packet)
  | blockEnd (p : Packet)
  | blockAck (p : Packet)
  | inv (p : Packet)
  | invAck (p : Packet)
  | retxTimeout (dst seq : Nat)
  -- herd time (files 02, 17, 21)
  | syncInterval
  | sync (m : HerdMsg)
  | delayReq (m : HerdMsg)
  | delayResp (m : HerdMsg)
  | slipReq (m : HerdMsg)
  | slip (m : HerdMsg)
  | takeover (m : HerdMsg)
  | frameChange (m : HerdMsg)
  | join (m : HerdMsg)
  | joinAck (m : HerdMsg)
  | joinResend
  | herdJoinTimeout
  | herdForm
  | guardPoint
  | fallbackCheck
  | guardWindowOpen
  | backupBroadcast
  | masterLost
  | holdoverExpiry
  | tick (stores : List HostStore)
  -- weights (file 13)
  | reloadDone (ctx : Nat)
  | replaceRewriteDone (ctx : Nat)
  | chainOffer (src : CmdSrc)
  | chainReady (src : CmdSrc)
  | pieceNotice (src : CmdSrc) (piece : Nat) (poisoned : Bool)
  | peerSourceTimeout (src : CmdSrc)
  -- stacks and integrity (files 14 and 18)
  | refresh (stack pc bank : Nat) (idle : Bool)
  | stackTempReading (stack : Nat) (temps : List Nat)
  | stackThrottleFall (stack : Nat)
  | storeScrub (corrected : List Nat) (bad : List ArrayUe)
  | meshFlitReceive (edge : Nat) (data : List Byte) (crc : Nat) (granules : List Nat)
  -- links (file 15)
  | flitReceive (link : Nat) (flit : List Byte) (fec : Option (List Nat))
  | nak (link ack : Nat)
  | replayTimeout (link : Nat)
  | laneLockLoss (link : Nat) (lost : Option Nat) (symbolErrors : List Nat)
  | degradeMessage (link lane lastSeq : Nat)
  | retrainComplete (link lastSeq : Nat)
  | linkDown (link : Nat)
  | linkRetrainAttempt (link : Nat) (report : Option LinkReport)
  | identityBlock (report : LinkReport)
  -- power and cooling (file 19)
  | controlInterval (volts10mV milliamps watts : Nat)
  | brakeN (low : Bool) (heldNs : Nat)
  | inputUv (volts10mV : Nat)
  | inputUvClear (volts10mV : Nat)
  | inputLockout (volts10mV : Nat)
  | inputQualified (volts10mV : Nat)
  | vrAlert (regulator : Nat)
  | vrAlertClear (regulator : Nat)
  | dieTempReading (temps : List Nat)
  | dieFloorStep
  | thermalReset
  | flowFail (heldNs : Nat)
  | flowHoldEnd
  -- reset and start-up (files 20, 21, 25)
  | perstN (lowNs : Nat)
  | moduleReset (cause : Nat)
  | domainRelease
  | romChecks (first second : Straps) (fuseOk : Bool) (digest : List Byte)
  | trainingComplete (report : TrainReport)
  -- management, debug and registers (files 23 and 24)
  | descriptor (port : Nat) (head : MgtHead) (bytes : List Byte)
  | fetch (port : Nat) (head : MgtHead) (offset length : Nat)
  | mgtState (port : Nat) (head : MgtHead)
  | mgtReset (port : Nat) (head : MgtHead) (device : Nat)
  | debugChallenge (port : Nat) (head : MgtHead) (scope : Nat)
  | debugResponse (port : Nat) (head : MgtHead) (body : List Byte)
  | setEndpointId (port eid : Nat)
  | getEndpointId (port : Nat)
  | getEndpointUuid (port : Nat)
  | getMctpVersionSupport (port msgType : Nat)
  | getMessageTypeSupport (port : Nat)
  | dynamicAddressAssignment (port addr : Nat)
  | ideKm (stream : Nat) (isLink : Bool) (key : IdeKeying)
  | ideIntegrityFailure (stream : Nat)
  | secLock (value : Nat)
  | dbgReset (data : List Byte)
  | mgtCtrl (data : List Byte)
  | registerWrite (fn offset : Nat) (data : List Byte)
  | perstNRelease
  | railsUp
  | cableSupplyOverload (connector : Nat)
  | cableSupplyRetry (connector : Nat) (overload : Bool)
  | telemetryCoarse (src : CmdSrc)
  | dropNotice (home : Nat)
  | chainOfferReceive (dev opcode srcAddr destAddr length : Nat)
  | kvHandover (srcDev stream layoutId tokens fed : Nat) (pages : List (List Granule))
  | configurationRequest (fn : Nat) (write : Bool) (offset value : Nat)
deriving DecidableEq, Repr

end Sys2Proof
end

