-- ==== Sys2Proof/Config.lean ====
section
/-! DEFINITION. What one module fixes, and the free values: constants without a body, of which nothing can be proved. The
manual leaves each of them open (log entry 2 names the rule of each). A meaning applies a free value to State.free, which
it then advances, or to the operands it depends on. -/
namespace Sys2Proof.Config

/-- A fresh byte the manual leaves open. -/
opaque freeByte : Nat → Byte
/-- A fresh truth value the manual leaves open. -/
opaque freeBool : Nat → Bool
/-- A fresh number the manual leaves open, a token among them (R140, R214). -/
opaque freeNat : Nat → Nat
/-- Which value a VOP circuit gives among those within the bound of its operation, as a distance in codes from the rounded one,
for operation `op` (with the row length of RSQRT_MEAN) and operands (R164, R165, Table 6-10): equal operands give equal results. -/
opaque vopError : (op : Nat) → F32 → F32 → Int
/-- Sign and low mantissa bits of the NaN that an operation produces (R162, R164; IEEE 754 leaves them). -/
opaque nanBits : (op : Nat) → F32 → F32 → BitVec 23
/-- The module's endpoint UUID, 16 bytes (R508). -/
opaque endpointUuid : Nat → Byte
/-- The PCI vendor ID in MCTP vendor-defined messages (R508, Table 23-5). -/
opaque vendorId : BitVec 16
/-- The MCTP version entries of a message type (R508). -/
opaque mctpVersions : Nat → List Byte
/-- Byte `i` of a signature of the module's identity key over a message (R504, R505). -/
opaque signature : List Byte → Nat → Byte
/-- Whether a signature by Sarlis's debug authority over a message is good (R514). -/
opaque debugSignatureGood : List Byte → List Byte → Bool
/-- Byte `i` of what the fuses fix and a quote carries: kind 0 the device identity certificate, 1 the production
intermediate, 2 the digest of the fuse block (R503, R505). -/
opaque identityByte : (kind i : Nat) → Byte
/-- Length of a certificate of identityByte's kinds 0 and 1 (R503, R506). -/
opaque certLength : (kind : Nat) → Nat

end Sys2Proof.Config
end

