-- ==== Sys2Proof/Machine/State.lean ====
section
/-! DEFINITION. The state of the block: everything the manual gives the module, as plain data, and State.reset. Each field
names its rule and its reset value; DC marks a DESIGN CHOICE (the manual states no reset value; log entry 1), MODEL a
field that is the model's own. -/
namespace Sys2Proof.Machine

/-- Why a step stops with a fault. -/
inductive Fault where
  /-- Raised by INPUT_LOCKOUT and INPUT_QUALIFIED above the absolute maximum of 72 V (Table 19-1, R543): damage, no
  effect is given. Safe. -/
  | inputDamage
deriving DecidableEq, Repr

/-- Why a command has no meaning. -/
inductive Refusal where
  /-- Raised by a row not modelled yet. Safe. -/
  | notModelled (mnemonic : String)
deriving DecidableEq, Repr

/-- The states of Table 21-1. -/
inductive Mode where
  | off | rom | trained | herd | ready | recovery
deriving DecidableEq, Repr

/-- Start-up, reset and pins. -/
structure Boot where
  /-- CFG_STATE.STATE (R463, R464; reset ROM) -/
  mode : Mode
  /-- CFG_STATE.HOLD, 8 bits (R464; 0) -/
  hold : Nat
  /-- CFG_STATE.TRAINING (R464, R466; 0) -/
  training : Bool
  /-- CFG_STATE.LAST_RESET, 4 bits (R464; the cause, 0 power arriving) -/
  lastReset : Nat
  /-- reset domains released, D0 first, 0 to 9 (R458; 2: D0 and D1 by hardware) -/
  released : Nat
  /-- the cause of the reset still holds: PERST_N low (R458; no) -/
  perstLow : Bool
  /-- the input has been qualified (R426; yes, power has arrived) -/
  inputOn : Bool
  /-- the rails are up (R463, R537; yes) -/
  railsUp : Bool
  /-- FLOW_FAIL_N is low (R467, R535; high) -/
  flowLow : Bool
  /-- straps read in ROM (R17, R27, R365, R369; 0 until read, DC) -/
  straps : Straps
  /-- thermal hold pending after a thermal reset (R441; no) -/
  thermalHold : Bool
  /-- FAULT_N held by a fatal error or a thermal reset until the reset completes (R421, Table 22-3; released) -/
  faultHeld : Bool
  /-- the functions have become ready in this pass through ROM (R468; no) -/
  ready : Bool
  /-- BAR0 and BAR1 of the PF: the 64-bit base of 64 KiB (R517; 0 PRESUMED, PCI Express) -/
  bar : Nat
  /-- VF Enable (R498; 0 PRESUMED, PCI Express) -/
  vfEnable : Bool
  /-- NumVFs, 0 to 16 (R498; 0 PRESUMED, PCI Express) -/
  numVfs : Nat
  /-- connectors J0 to J7 whose 3.3 V supply is switched off after a limit (R541; none) -/
  cablesOff : List Nat
deriving DecidableEq, Repr

/-- What is fused into the part. -/
structure Fuse where
  /-- SERIAL, 64 bits (R502, Table 24-4; fused, 0 DC) -/
  serial : Nat
  /-- STEPPING, 8 bits (Table 24-3; fused, 0x01 the first production stepping) -/
  stepping : Nat
  /-- PWR_CAL.BASE_W, 16 bits (Table 19-12; fused, 1,200 typical, DC) -/
  baseW : Nat
  /-- roles the strap mask permits, a 4-bit mask (R465; all four) -/
  roleMask : Nat
  /-- LINKSPLIT codes the strap mask permits, an 8-bit mask (R465; 0 to 6) -/
  linksplitMask : Nat
deriving DecidableEq, Repr

/-- The set-up registers of the PF that hold RWL fields, as stored, and the write counters (Table 24-2). -/
structure Regs where
  /-- CFG_GUARD, 0x0020 (Table 8-5; 0x0001_0014) -/
  cfgGuard : Nat
  /-- HRT_FRAME, 0x3000 (Table 24-6; 0x4_000A_01F4) -/
  hrtFrame : Nat
  /-- HRT_SYNC, 0x3008 (Table 24-7; 0x0003_0803) -/
  hrtSync : Nat
  /-- HRT_CTRL, 0x3010 (Table 24-8; 0x0064_0A01) -/
  hrtCtrl : Nat
  /-- HRT_SYNC and HRT_CTRL as they apply, from a sync interval on (R523; the reset values) -/
  syncNow : Nat
  ctrlNow : Nat
  /-- PWR_CTRL, 0x4000 (Table 19-8; 0) -/
  pwrCtrl : Nat
  /-- PWR_CAP, 0x4008 (Table 19-9; 0x0BB8_1770) -/
  pwrCap : Nat
  /-- PWR_LIMITS, 0x4010 (Table 19-10; 0x2EB1) -/
  pwrLimits : Nat
  /-- PWR_THERM, 0x4018 (Table 19-11; 0x0364) -/
  pwrTherm : Nat
  /-- MEM_LINEAR_LO, 0x5000 (Table 14-7; 0) -/
  memLinearLo : Nat
  /-- MEM_LINEAR_HI, 0x5008 (Table 14-8; 0) -/
  memLinearHi : Nat
  /-- MEM_THERM, 0x5010 (Table 14-9; 0x0069_235F) -/
  memTherm : Nat
  /-- LNK_DEGRADE, 0x6008 (Table 15-11; 0x0190_0410) -/
  lnkDegrade : Nat
  /-- FAB_TRANSPORT, 0x7000 (Table 16-12; 0x0001_0614) -/
  fabTransport : Nat
  /-- MGT_CTRL, 0x8000 (Table 23-11; 7) -/
  mgtCtrl : Nat
  /-- SEC_STATUS.LOCKED, set by SEC_LOCK (Tables 23-9, 23-10; 0) -/
  locked : Bool
  /-- CFG_WRITES_IGNORED, 32 bits saturating (Table 24-5; 0) -/
  writesIgnored : Nat
  /-- DBG_RESET.HOLD, 7 bits (Table 20-6; 0) -/
  dbgHold : Nat
  /-- DBG_RESET.IGNORED, 8 bits saturating (Table 20-6; 0) -/
  dbgIgnored : Nat
deriving DecidableEq, Repr

/-- One MSI-X table entry and its pending bit (R87, R517). An entry not listed is masked, with address and data 0
(PRESUMED, PCI Express). -/
structure MsixEntry where
  addr : Nat
  data : Nat
  masked : Bool
  pendingBit : Bool
deriving DecidableEq, Repr

/-- A ring that is not closed (R62 to R75, R90). Indices are 32-bit. -/
structure Ring where
  /-- 1 SUBMIT, 2 COMPLETE, 3 EVENT (Table 3-3) -/
  type : Nat
  log2 : Nat
  pair : Nat
  vector : Nat
  irqEn : Bool
  base : Nat
  status : Nat
  modCount : Nat
  modUs : Nat
  /-- 1 open, 2 draining, 3 recovering (Table 3-7) -/
  phase : Nat
  /-- SUBMIT: next descriptor to accept. EVENT: next event record. COMPLETE: its base (R73) -/
  accepted : Nat
  /-- SUBMIT: next completion record. COMPLETE: next record to write -/
  completed : Nat
  resets : Nat
  /-- SUBMIT: the host's producer index; COMPLETE, EVENT: its consumer index -/
  hostIndex : Nat
  /-- records written and not yet signalled (R87) -/
  unsignalled : Nat
  /-- OPEN as last read: a draining ring opens again after it closes, a walked one shows it (R75, R90) -/
  reopen : Bool
deriving DecidableEq, Repr

/-- One PCI Express function: 0 the PF, n the VF n. -/
structure FnState where
  /-- RING_DIR_BASE (Table 3-12; 0) -/
  dirBase : Nat
  /-- RING_DB_BASE (Table 3-13; 0) -/
  dbBase : Nat
  /-- RING_CTRL.ENABLE (Table 3-14; 0) -/
  enable : Bool
  /-- RING_CTRL.WALKING (Table 3-14; 0) -/
  walking : Bool
  /-- the walk of R90 has not run since the last module reset (R90; yes) -/
  walkDue : Bool
  /-- rings not closed, by directory number (R72; none) -/
  rings : Sparse Ring
  /-- records whose ring was refused and whose OPEN has not been read as 0 since (R72; none) -/
  refused : List Nat
  /-- rings whose record has been read with OPEN = 1 since the last module reset (R74; none) -/
  seen : List Nat
  /-- SUBMIT rings whose pair failed the check before the walk (R90; none) -/
  walkFailed : List Nat
  /-- the last value ignored, by doorbell record (R69; none) -/
  ignored : Sparse Nat
  /-- doorbell records counted as ignored (R69; 0) -/
  ignoredCount : Nat
  /-- events not written for want of room (R86; 0) -/
  eventsLost : Nat
  /-- events dropped for want of an open event ring (R86; 0) -/
  eventsDropped : Nat
  /-- MSI-X entries that differ from the initial one (R87; none) -/
  msix : Sparse MsixEntry
deriving DecidableEq, Repr

/-- A posted request of the module to the host: bytes written, or the message of a vector. -/
inductive HostReq where
  | write (addr : Nat) (bytes : List Byte)
  | message (fn vector : Nat)
deriving DecidableEq, Repr

/-- Host memory as the module meets it: bytes, and the bytes whose read ends poisoned (R62, Table 18-3). -/
structure HostMem where
  cells : List Host.Cell
  poisoned : List Nat
  /-- requests of the module that wait for a stream that is Insecure, oldest first (R501; none) -/
  held : List HostReq
deriving DecidableEq, Repr

/-- Where an accepted command stands. -/
inductive CmdPhase where
  | waiting
  | running
  | done (status detail result : Nat)
deriving DecidableEq, Repr

/-- The fan-out of a weight command (R315 to R317): offers sent, an upstream's offer answered ready, the downstream's
ready answer taken, pieces forwarded, and the device that a forwarded write did not reach. -/
structure Chain where
  offers : Nat
  offered : Bool
  ready : Bool
  sent : Nat
  dead : Option Nat
deriving DecidableEq, Repr

/-- An accepted command that has no completion record yet (R78, R81, R124). -/
structure FleosCmd where
  src : CmdSrc
  /-- place in the total order of intake (R123) -/
  order : Nat
  /-- the 64 bytes of the descriptor (R76) -/
  desc : List Byte
  phase : CmdPhase
  /-- TIME of the record, set when the command ends (R80) -/
  time : Nat
  /-- frame in force at acceptance (R141, R319) -/
  frame : Nat
  /-- progress: frames run, tokens processed, bytes written, K_E and the like -/
  progress : Nat
  /-- second word of progress: first sampled token, fence epoch, a stage -/
  note : Nat
  /-- fan-out of a weight command (R315; none begun) -/
  chain : Chain
  /-- MCTP TAG of a management DESCRIPTOR (R509) -/
  mgtTag : Nat
  /-- PROMPT_SUBMIT: the last frame that has carried its work (R113; none) -/
  carried : Option Nat
  /-- the frame abandoned under it: it completes SLIPPED_OUT once the frame's running commands have ended (R55) -/
  slipOut : Option Nat
deriving DecidableEq, Repr

/-- A region of T1 (R131). `live` once its tick has passed; `leaving` while its removal waits for one. -/
structure Region where
  kind : Nat
  addr : Nat
  size : Nat
  peerFirst : Nat
  peerLast : Nat
  live : Bool
  leaving : Bool
  /-- the REGION_UNMAP that waits for the recall of the region's granules (Table 16-10) -/
  unmap : Option Nat
deriving DecidableEq, Repr

/-- An extent of a layer record (Table 13-1). -/
structure Extent where
  dest : Nat
  length : Nat
  originKind : Nat
  originAddr : Nat
  state : Nat
  writeGen : Nat
deriving DecidableEq, Repr

/-- A replacement or replay barrier of a context (R319, R326). -/
structure Barrier where
  /-- the WEIGHT_REPLACE that raises it, by order; none for a replay barrier -/
  cmd : Option Nat
  /-- layers named, ascending -/
  layers : List Nat
  held : Bool
  /-- first tick at which it may rise -/
  from_ : Nat
  /-- no rewrite is left to do: with every reload written too, it is released at the next tick -/
  finished : Bool
deriving DecidableEq, Repr

/-- Sampling parameters of a stream, as read at STREAM_OPEN (Table 9-2). -/
structure StreamParams where
  sample : Nat
  draftSrc : Nat
  topK : Nat
  invT : F32
  topP : F32
  maxLen : Nat
  draftMax : Nat
  deadline : Nat
  draftAddr : Nat
  stopIds : List Nat
  stopSeqs : List (List Nat)
deriving DecidableEq, Repr

/-- An open or ended stream, kept until its closing command completes (R138, R210). -/
structure Stream where
  /-- stream number: use count × 65,536 + slot -/
  number : Nat
  ctx : Nat
  ringAddr : Nat
  log2 : Nat
  consumerAddr : Nat
  /-- last consumer word read (R84) -/
  consumer : Nat
  /-- index of the next token record -/
  writeIndex : Nat
  seed : Nat
  params : StreamParams
  /-- position of the next token to be sampled (R217) -/
  next : Nat
  /-- the fed token (R214) -/
  fed : Option Nat
  /-- LAST = 1 has been written (R83) -/
  ended : Bool
  /-- tokens emitted (R139, R224) -/
  emitted : Nat
  /-- last 16 generated tokens with their positions, newest first -/
  recent : List (Nat × Nat)
  /-- drafts of the module for this frame, by index (R220) -/
  drafts : Sparse Nat
  /-- drafts of the host record read at the tick: START, COUNT and tokens; none when stale or absent (R219, R226) -/
  hostDraft : Option (Nat × List Nat)
  /-- frame of the last step (R242) -/
  lastStep : Nat
  /-- already stepped in the frame now running (R229) -/
  stepped : Bool
  /-- in a run of frames masked for ring room (R84) -/
  stalled : Bool
  /-- a PROMPT_SUBMIT runs for it, by order (R215) -/
  prompt : Option Nat
  /-- the token that waits for ring room before PROMPT_SUBMIT completes (R214) -/
  promptToken : Option Nat
  /-- closing command and its STOP code, waiting for its tick (R139) -/
  closing : Option (Nat × Nat)
  /-- the deadline has been found reached and the final record is owed (R225) -/
  deadlineDue : Bool
  /-- its step of the last frame read poison and is owed again (R325, R328) -/
  retake : Bool
  /-- KV loss: to be ended at the next tick (R241) -/
  kvLost : Bool
  /-- a KV entry written for it in this frame holds poison (R325) -/
  kvPoison : Bool
  /-- committed KV length (R239) -/
  kvLen : Nat
  /-- page directory slot (R236) -/
  dirSlot : Option Nat
  /-- the device that handed the stream's pages over and waits for the answer (R214, R253) -/
  handFrom : Option Nat
  /-- its masked frame has been counted in the frame now running (R215) -/
  masked : Bool
deriving DecidableEq, Repr

def Chain.none : Chain := { offers := 0, offered := false, ready := false, sent := 0, dead := Option.none }

/-- The KV pool of a context (R234, Table 10-2) and what of it is in use. -/
structure Pool where
  kfmt : Nat
  vfmt : Nat
  layers : Nat
  hkv : Nat
  dh : Nat
  frameCount : Nat
  leafCount : Nat
  dirSlots : Nat
  tableBase : Nat
  layoutId : Nat
  frameBase : List Nat
  usedFrames : List Nat
  usedLeaves : List Nat
  usedDirs : List Nat
  usedSpill : List Nat
  /-- a spill above HIGH_PCT is under way (R242; false) -/
  spillRun : Bool
deriving DecidableEq, Repr

/-- A slot of a hot pool: the expert held and its stamp (R271). -/
structure HotSlot where
  expert : Option Nat
  stamp : Nat
deriving DecidableEq, Repr

/-- The hot pool of a layer (R271) and the layer's last routing result (R270 to R273). -/
structure HotPool where
  hotSlots : Nat
  partBytes : Nat
  imagePart : Nat
  woff : Nat
  coldBase : Nat
  hotBase : List Nat
  slots : List HotSlot
  pins : List Nat
  /-- slots to be emptied at the next tick (R273) -/
  toEmpty : List Nat
  /-- final segment length of each local expert -/
  lens : List Nat
  /-- local experts fetched in the frame of the result -/
  fetched : List Nat
  /-- local experts dropped in that frame -/
  dropped : List Nat
  /-- rows accepted from each participant for each local expert; a rejected message counts 0 -/
  counts : List (List Nat)
  /-- participants whose count message was rejected -/
  rejected : List Nat
  frame : Nat
  /-- fetches of that frame not completed: local expert, and TE queue and command that copies (R279) -/
  landing : List (Nat × Nat × Nat)
deriving DecidableEq, Repr

/-- One entry of a prefetch schedule (Table 12-5). -/
structure SchedEntry where
  phase : Nat
  gen : Bool
  srcRemote : Bool
  srcTcf : Bool
  freeWait : Bool
  lead : Nat
  startOff : Nat
  src : Nat
  dst : Nat
  length : Nat
  readyEvent : Nat
  freeEvent : Nat
  freeCount : Nat
deriving DecidableEq, Repr

/-- A program's bound schedule (R292 to R297). -/
structure Schedule where
  period : Nat
  entries : List SchedEntry
  coreFirst : Nat
  coreCount : Nat
  /-- k₀, once a tick has passed (R294) -/
  k0 : Option Nat
  /-- (entry, served frame) pairs issued -/
  issued : List (Nat × Nat)
  /-- the next tick issues what is owed, as at k₀ (R296) -/
  prime : Bool
  /-- (entry, served frame) pairs held for a rewrite and counted as such (R285) -/
  held : List (Nat × Nat)
  /-- destinations that hold a copy made by it (R283) -/
  filled : List Nat
deriving DecidableEq, Repr

/-- One fill entry (Table 4-7); `engine` is that of the queue the entry names. -/
structure Fill where
  kind : Nat
  engine : Engine
  queue : Nat
  cmd : Nat
  group : Nat
  source : Nat
  param : Nat
deriving DecidableEq, Repr

/-- Sticky widening of one layer class (R202). -/
structure Sticky where
  repeats : Nat
  topRung : Nat
  /-- ticks left of the sticky period -/
  left : Nat
  rung : Nat
  /-- becomes sticky at the next tick -/
  armed : Bool
  stickyRepeats : Nat
  stickyFrames : Nat
  /-- a descriptor of the class has been read since PROGRAM_START (R200) -/
  seen : Bool
deriving DecidableEq, Repr

/-- A loaded program (R133). -/
structure Program where
  queues : List (Engine × Nat)
  eventBase : Nat
  eventCount : Nat
  fills : List Fill
  /-- its lists end in FRAME_LOOP -/
  isFrame : Bool
  schedule : Option Schedule
  /-- orders of the open PROGRAM_STARTs: a start of held queues leaves an earlier one open (R134, R135; none) -/
  startCmds : List Nat
  /-- orders of the PROGRAM_STOP commands that wait, with their MODE -/
  stopCmds : List (Nat × Nat)
  classes : Sparse Sticky
  /-- starting rungs of the frame now running, by (engine, queue, list index) (R204) -/
  rungs : List ((Engine × Nat × Nat) × Nat)
  /-- rungs recorded for the frame to be replayed -/
  replayRungs : List ((Engine × Nat × Nat) × Nat)
  /-- groups marked for the current frame (R117) -/
  marks : List Nat
deriving DecidableEq, Repr

/-- A mailbox (R384). -/
structure Mailbox where
  program : Nat
  event : Nat
  slots : Nat
  ring : Nat
  delivered : Nat
  released : Nat
deriving DecidableEq, Repr

/-- A batch in force (R141, R215, R229). -/
structure Batch where
  streams : List Nat
  vector : Nat
  irqEn : Bool
  fn : Nat
  /-- slots whose stream was taken by another batch -/
  gone : List Nat
deriving DecidableEq, Repr

/-- A serving context (R121, R129). -/
structure Context where
  streamQuota : Nat
  eventQuota : Nat
  queueQuota : Nat
  memQuota : Nat
  regions : Sparse Region
  layers : Sparse (List Extent)
  /-- weight generation number (R321; 0 at CTX_CREATE) -/
  generation : Nat
  /-- the number in effect at the last tick (R321; 0) -/
  generationAtTick : Nat
  barrier : Option Barrier
  /-- layers of T1 originals found poisoned since the last tick (R326) -/
  poisonedLayers : List Nat
  programs : Sparse Program
  batches : Sparse Batch
  /-- KV_SPILL_POLICY: MODE, FORMAT, LOOKAHEAD, HIGH_PCT, T2_BASE, T2_SIZE (R137; 1, 1, 1, 90, none) -/
  spillMode : Nat
  spillFormat : Nat
  lookahead : Nat
  highPct : Nat
  t2Base : Nat
  t2Size : Nat
  pool : Option Pool
  /-- CAP and POLICY by layer (R137; 8 and 0) -/
  residency : Sparse (Nat × Nat)
  hotPools : Sparse HotPool
  mailboxes : Sparse Mailbox
  /-- fence epoch, 16 bits (R391; 0 at CTX_CREATE) -/
  fenceEpoch : Nat
  /-- writes issued and not acknowledged, by (epoch, destination) (R391) -/
  epochs : List ((Nat × Nat) × Nat)
  /-- fences whose writes met PEER_UNREACHABLE: (epoch, destination) (R388) -/
  epochFails : List (Nat × Nat)
  /-- runs of each exchange KEY since PROGRAM_START (R395) -/
  exchangeRuns : Sparse Nat
deriving DecidableEq, Repr

/-- An error record (Table 18-6). `detail` is 64 bits. -/
structure ErrRec where
  number : Nat
  cls : Nat
  severity : Nat
  unitKind : Nat
  unit : Nat
  ctx : Nat
  engine : Nat
  queue : Nat
  count : Nat
  time : Nat
  addr : Nat
  listIndex : Nat
  task : Nat
  instr : Nat
  stream : Nat
  detail : Nat
  /-- the span in which it was written: mode, and number of the span (R423) -/
  span : Nat × Nat
deriving DecidableEq, Repr

/-- A hardware queue that is not IDLE (Table 4-4). -/
structure Queue where
  /-- 1 READY, 2 WAITING, 3 RUNNING, 4 HOLDING, 5 FAULTED -/
  state : Nat
  ctx : Nat
  program : Nat
  /-- the list: 64-byte commands, events rebased, as filled -/
  list : List (List Byte)
  /-- the list as loaded, before fills -/
  template : List (List Byte)
  /-- list index of the head command -/
  head : Nat
  /-- the command that runs, as it was fetched (R117; none) -/
  cur : Option (List Byte)
  /-- waits for the next tick before command 0 (R113) -/
  awaitTick : Bool
  /-- tasks of the running command issued, and finished -/
  issued : Nat
  finished : Nat
  /-- SE, TE and FE: the running command's work has been done or issued -/
  worked : Bool
  /-- the record of the first defect that a task of the running command met; its other tasks finish first (R168; none) -/
  defect : Option ErrRec
  /-- starting rung of the running command (R201) -/
  rung : Nat
  /-- a stop request: 0 stop, 1 hold (R102) -/
  stopReq : Option Nat
  /-- the GUARD command of the frame has retired (R47) -/
  guardDone : Bool
  /-- the class of a task that has repeated in the current frame (R205, R206; none) -/
  repeated : Option Nat
  /-- the running command is of a frame that has ended: it does not signal (R110) -/
  late : Bool
  /-- a missed fill has been counted for the head command (R118) -/
  missed : Bool
  /-- tasks to issue again after a fence: index, rung reached, 1 if repeated in this frame (R169, R199) -/
  reissue : List (Nat × Nat × Nat)
deriving DecidableEq, Repr

/-- What a task has read before its first instruction: its program's header and forms, its row limit, its guard descriptor
(R153, R154, R191, R192). -/
structure Run where
  cmd : List Byte
  prog : Nat
  header : List Byte
  len : Nat
  tq : Nat
  tr : Nat
  vrows : Option Nat
  /-- PG of the guarded program, 0 for none (R191) -/
  pg : Nat
  /-- the guard descriptor -/
  gd : List Byte
  /-- of a guarded program: opcode, flags and format byte of every instruction (R197) -/
  forms : List (Nat × Nat × Nat)
deriving DecidableEq, Repr

/-- A weight tile in a bank: its format, NV, KV, and its columns as granules (R163). -/
structure Tile where
  fmt : Nat
  nv : Nat
  kv : Nat
  cols : List (List Granule)
deriving DecidableEq, Repr

/-- A task on a PE or GE unit, as it runs a tile program (R153, R193). -/
structure Task where
  engine : Engine
  unit : Nat
  queue : Nat
  index : Nat
  /-- what TILE_RUN has read; none before it -/
  run : Option Run
  /-- index of the next tile instruction -/
  pc : Nat
  /-- the instruction buffer: the next instructions fetched, at most 64 (R150) -/
  code : List (List Byte)
  rung : Nat
  clip : Nat
  zeroBlocks : Nat
  edge : Nat
  /-- the guard has failed in this run -/
  failed : Bool
  /-- how often the task has repeated -/
  repeats : Nat
  /-- the bank that the previous MMA used (R163) -/
  tile : Option Tile
  /-- the instruction that was fetched again after an error of the buffer (Table 18-4; none) -/
  refetched : Option Nat
  /-- the other bank: the tile fetched for the MMA at an index (R163) -/
  ahead : Option (Nat × Tile)
  /-- granules that the run has stored to and whose write waits for a recall (R155, R198, R398) -/
  stores : List Nat
deriving DecidableEq, Repr

/-- The five engines. -/
structure Engines where
  /-- queues not IDLE, by engine × 64 + queue (R98; none) -/
  queues : Sparse Queue
  /-- tasks on units (R105; none) -/
  tasks : List Task
  /-- fenced units (R106; none) -/
  fenced : List (Engine × Nat)
  /-- units of SE, TE and FE that hold a task: engine, unit and queue, the longest held first (R105; none) -/
  held : List (Engine × Nat × Nat)
  /-- event counters that are not 0, 32 bits each, 0 to 4,095 (R109; 0) -/
  events : Sparse Nat
deriving DecidableEq, Repr

/-- A line of the write-back cache (R305): set, way, tag, use stamp, and the dirty granules with their contents. -/
structure CacheLine where
  set : Nat
  way : Nat
  tag : Nat
  stamp : Nat
  granules : List Granule
  dirty : List Nat
deriving DecidableEq, Repr

/-- One stack and its controller. -/
structure StackState where
  /-- throttle step, 0 to 3 (R349; 0) -/
  step : Nat
  /-- hottest reading, °C (R349; 0 DC) -/
  hottest : Nat
  /-- highest reading since reset (R352; 0) -/
  highest : Nat
  /-- at or above T_CRIT since the last crossing (R349; no) -/
  critical : Bool
  /-- the readings stay below the falling threshold of the step (R349; no) -/
  cool : Bool
  /-- refreshes postponed, by pseudo-channel × 64 + bank (R348; 0) -/
  postponed : Sparse Nat
  /-- retries exhausted, by pseudo-channel: count and the herd time of the first of the window (R343; none) -/
  exhausted : Sparse (Nat × Nat)
  /-- spare lanes used, as (channel, lane) (R346; none) -/
  spares : List (Nat × Nat)
  /-- in self-refresh (R348; no) -/
  selfRefresh : Bool
deriving DecidableEq, Repr

/-- Package memory. -/
structure MemState where
  /-- payload bytes by local address; an unlisted byte is 0 (R14, R15; none listed, DC) -/
  cells : List Host.Cell
  /-- tag bytes by 8 × granule number + tag index; an unlisted byte is 0 (R14, R171; none listed, DC) -/
  tags : List Host.Cell
  /-- the write-back cache (R305; empty) -/
  cache : List CacheLine
  /-- failed pseudo-channels, stack × 64 + pseudo-channel (R345; none) -/
  failed : List Nat
  /-- the 20 stacks -/
  stackStates : List StackState
  /-- exhausted retries of mesh edges: count and window start (R411; none) -/
  meshFails : Sparse (Nat × Nat)
  /-- attempts of the mesh flit now replayed, by edge (R411; none) -/
  meshTries : Sparse Nat
  /-- SRAM words corrected, by die: the Store dies by number, compute dies from 100, stack base dies from 200 (R410; 0) -/
  corrected : Sparse Nat
deriving DecidableEq, Repr

/-- A packet, or what is left of one, that waits for the window or for credits of its virtual channel (R358, R359). -/
structure WaitPkt where
  vc : Nat
  /-- generation-class: GEN = 1 (R111) -/
  gen : Bool
  /-- a herd-control message sent again after a link went DOWN: no further time (R548) -/
  again : Bool
  /-- some of it has left (R358) -/
  started : Bool
  /-- payloads of at most 15 slots -/
  pieces : List (List Byte)
deriving DecidableEq, Repr

/-- A DATA flit not acknowledged (R359). -/
structure SentFlit where
  seq : Nat
  vc : Nat
  /-- as WaitPkt.again -/
  again : Bool
  payload : List Byte
deriving DecidableEq, Repr

/-- The transmit stream of a link: what of it has been scrambled and is not yet in a codeword (R354, R355). -/
structure TxStream where
  /-- place in the superframe of the next flit, 0 to 1,284 -/
  pos : Nat
  /-- the last 58 scrambled bits -/
  scram : Nat
  /-- scrambled message bits, the earliest lowest, and how many -/
  bits : Nat
  count : Nat
  /-- number of the next codeword symbol of the stream -/
  symbol : Nat
deriving DecidableEq, Repr

/-- A stream as it starts, at the first flit of a superframe. -/
def TxStream.reset : TxStream := { pos := 0, scram := 0, bits := 0, count := 0, symbol := 0 }

/-- A Worl link (R353 to R377). -/
structure Link where
  /-- LNK_STATUS.STATE: 0 OFF, 1 TRAINING, 2 ACTIVE, 3 DISABLED, 4 DOWN, 5 LOOPBACK (Table 15-10; 0) -/
  state : Nat
  /-- active receive lanes, a mask (0) -/
  lanes : Nat
  /-- width at training (R377; 0) -/
  trainedWidth : Nat
  lrev : Bool
  /-- LNK_STATUS.DIS_REASON (0) -/
  disReason : Nat
  /-- peer KIND, LINK field and ID (0) -/
  peerKind : Nat
  peerPort : Nat
  peerId : Nat
  /-- the peer admitted at the previous training: KIND, port and ID (R371; none) -/
  admitted : Option (Nat × Nat × Nat)
  /-- SEQ of the next DATA flit, 12 bits (R359; 0) -/
  txSeq : Nat
  /-- DATA flits not acknowledged, oldest first (R359; none) -/
  replay : List SentFlit
  /-- packets that wait, in arrival order (R358; none) -/
  waiting : List WaitPkt
  /-- slots the peer can take, by virtual channel (R358; 256 each) -/
  credits : List Nat
  /-- slots freed here since the last flit sent, by virtual channel (0) -/
  owed : List Nat
  /-- SEQ expected next, 12 bits (R359; 0) -/
  rxNext : Nat
  /-- a failure has been answered with NAK and the replay is awaited (R359; no) -/
  nakSent : Bool
  /-- a DATA flit has been received in order and intact since training (R356; no) -/
  ackValid : Bool
  /-- payloads delivered to the transport, in order (R361) -/
  delivered : List (List Byte)
  /-- replays: count in the window and herd time of its start (R362) -/
  replays : Nat
  replayWindow : Nat
  /-- successive replays of the oldest flit (R362) -/
  sameReplays : Nat
  /-- a degrade is in progress: the lane leaving (R362) -/
  degrading : Option Nat
  /-- the transmit stream (R354, R355; at the first flit of a superframe, scrambler 0 DC) -/
  tx : TxStream
  /-- superframe lock: place in the superframe of the next flit received (R355; none) -/
  rxPos : Option Nat
deriving DecidableEq, Repr

/-- What a request of the transport was made for. -/
inductive ReqUse where
  /-- a load whose granules go to a local address; with `half`, one half as a whole granule (R382) -/
  | loadTo (addr : Nat) (half : Bool)
  /-- a load kept in a transfer's buffer from an index on -/
  | loadBuf (xfer index : Nat)
  /-- a load with CACHE = 1, kept as a copy also (R397) -/
  | loadCache (addr : Nat)
  /-- a write, message or invalidation: only its acknowledgement counts -/
  | write
  /-- an atomic and the address of its RESULT granule, or 0 (R383) -/
  | atomic (addr : Nat)
  /-- a packet of an exchange towards participant `d` -/
  | exchange (ctx key inst d : Nat)
deriving DecidableEq, Repr

/-- For whom a request waits: a queue of an engine, a transfer, an accepted command, or Fleos itself. -/
inductive Owner where
  | queue (e : Engine) (q : Nat)
  | xfer (id : Nat)
  | cmd (order : Nat)
  | fleos
deriving DecidableEq, Repr

/-- A request without its response (R386, R388). -/
structure Request where
  pkt : Packet
  use : ReqUse
  owner : Owner
  attempts : Nat
  /-- the last attempt left on the alternate route -/
  alternate : Bool
  /-- the last answer was BUSY: resent on the same route (R388) -/
  busy : Bool
  /-- its last attempt's link -/
  link : Option Nat
  /-- the fabric die that tracks it: that of its first attempt's link (R401) -/
  die : Option Nat
deriving DecidableEq, Repr

/-- What a transfer serves. -/
inductive XferUse where
  | sched (ctx program entry served : Nat)
  | spill (ctx dirSlot page slot : Nat)
  | ret (ctx dirSlot page : Nat)
  | copy (q : Nat)
  /-- the reload of an extent of a context's weights (R326) -/
  | weight (ctx : Nat)
deriving DecidableEq, Repr

/-- A transfer that fetches from remote memory, in one or two rounds (index, then groups, for TCF), or a local one in
flight (R294). -/
structure Xfer where
  id : Nat
  use : XferUse
  src : Nat
  dst : Nat
  len : Nat
  srcTcf : Bool
  /-- 0 index round, 1 data round, 2 data in place, 3 done before its served frame and to be signalled at its tick -/
  round : Nat
  buf : Sparse Granule
  /-- its events must not be signalled (R292) -/
  silent : Bool
  failed : Bool
  /-- its requests are generation class (R111, R244, R288) -/
  gen : Bool
  /-- a gather has waited for it (R245, R255) -/
  late : Bool
  /-- its source is local (R285) -/
  here : Bool
deriving DecidableEq, Repr

/-- Pages handed over that wait for frames of the destination pool (R241, R253). -/
structure Handover where
  dev : Nat
  stream : Nat
  tokens : Nat
  fed : Nat
  /-- the pages still to be stored, with their numbers -/
  pages : List (List Granule × Nat)
deriving DecidableEq, Repr

/-- The window of requests a target keeps for one source (R386). -/
structure Window where
  /-- requests at and below are received: the next SEQ expected -/
  mark : Nat
  /-- received above the mark -/
  above : List Nat
  /-- first results of atomics, by SEQ; a poisoned result as 2⁶⁴ -/
  atomics : Sparse Nat
  /-- herd time of the source's last packet -/
  last : Nat
deriving DecidableEq, Repr

/-- An exchange instance in progress (R395). -/
structure Exchange where
  ctx : Nat
  key : Nat
  inst : Nat
  q : Nat
  /-- own participant index -/
  own : Nat
  devs : List Nat
  sends : List (Nat × Nat)
  recvs : List (Nat × Nat)
  /-- participants whose BLOCK packets have left and whose BLOCK_END has not -/
  sending : List Nat
  /-- participants whose BLOCK_END has been sent, and acknowledged -/
  ended : List Nat
  acked : List Nat
  /-- granules written, by participant -/
  got : Sparse Nat
  /-- BLOCK_END counts received, by participant -/
  ends : Sparse Nat
  /-- participants skipped as unreachable (R487) -/
  skipped : List Nat
deriving DecidableEq, Repr

/-- A copy in a fold cache (R397). -/
structure FoldCopy where
  home : Nat
  addr : Nat
  stamp : Nat
  data : Granule
deriving DecidableEq, Repr

/-- A directory entry of a home (Table 16-9). -/
structure DirEntry where
  addr : Nat
  sharers : List Nat
  recalling : Bool
  /-- a recall that a request of the module wants waits for room (R399) -/
  queued : Bool
  stamp : Nat
  /-- packets that wait for the recall -/
  waiting : List Packet
  /-- local writes that wait for it -/
  writes : List Granule
deriving DecidableEq, Repr

/-- The transport and the fold (file 16). -/
structure Fabric where
  /-- next SEQ by destination (R386; 0) -/
  seqOut : Sparse Nat
  requests : List Request
  /-- requests held back by a limit (R401) -/
  held : List Request
  windows : Sparse Window
  /-- next request identifier, 15 bits -/
  nextTag : Nat
  /-- devices marked unreachable (R487; none) -/
  unreachable : List Nat
  xfers : List Xfer
  nextXfer : Nat
  exchanges : List Exchange
  /-- READY packets kept for commands not started (R396; none) -/
  readies : List Packet
  copies : List FoldCopy
  /-- outstanding fills marked stale (R400): home and address -/
  staleFills : List (Nat × Nat)
  directory : List DirEntry
  stamp : Nat
  /-- hand-overs that wait for frames (R253; none) -/
  handovers : List Handover
deriving DecidableEq, Repr

/-- The plan of the last HERD_JOIN that passed its checks (R472). -/
structure Plan where
  digest : List Byte
  bellwether : Nat
  deputy : Nat
  /-- device, role and BELL function of each module -/
  modules : List (Nat × Nat × Nat)
  /-- own link table: KIND, port, ID of each link -/
  links : List (Nat × Nat × Nat)
deriving DecidableEq, Repr

/-- A recorded slip request (R51, R492). -/
structure SlipRecord where
  frame : Nat
  s : Nat
  dev : Nat
  cause : Nat
  engine : Nat
  queue : Nat
deriving DecidableEq, Repr

/-- An entry of the slip log (R61). -/
structure SlipLog where
  frame : Nat
  opened : Nat
  newS : Nat
  cause : Nat
  engine : Nat
  queue : Nat
  first : Nat
  requesters : Nat
deriving DecidableEq, Repr

/-- Herd time, frames and slips (file 02). Times in ns unless stated. -/
structure Herd where
  /-- HRT_TIME, 64 bits (R23, Table 24-10; 0) -/
  time : Nat
  /-- fraction of the counter, in 2⁻³² ns (R23; 0 DC) -/
  frac : Nat
  /-- rate adjustment a, in 2⁻³² (R23; 0 DC) -/
  rate : Int
  /-- integral term of the servo, in 2⁻³² (R33; 0 DC) -/
  freq : Int
  /-- CFG_STATE.LOCKED for a follower (R34, R464; 0) -/
  locked : Bool
  /-- consecutive updates within 25 ns (R34; 0) -/
  lockRun : Nat
  /-- HRT_STATUS.EPOCH, 32 bits (Table 24-11; 0) -/
  epoch : Nat
  /-- HRT_STATUS.MASTER_DEV (Table 24-11; 0) -/
  masterDev : Nat
  /-- HRT_STATUS.IS_MASTER, IS_DEPUTY (0) -/
  isMaster : Bool
  isDeputy : Bool
  /-- DEPUTY_DEV of the last SYNC, 0xFFFF none (R49; 0xFFFF) -/
  deputyDev : Nat
  /-- a SYNC has been received since HERD was entered (R469; no) -/
  heard : Bool
  /-- the counter has been stepped to this master: by SYNC, and by the first exchange (R24; no) -/
  steppedSync : Bool
  steppedDelay : Bool
  /-- schedule of R38: T0, K0, P in ns, s (0, 0, 500,000, 0) -/
  t0 : Nat
  k0 : Nat
  period : Nat
  s : Nat
  /-- effective guard in ns, SLIP_MAX and G_min in µs in force (Table 24-9; 10,000, 4, 0) -/
  guard : Nat
  slipMax : Nat
  gminUs : Nat
  /-- an effective guard announced and its first tick (R46; none) -/
  guardNext : Option (Nat × Nat)
  /-- sync interval code in force (R39, R523; 3) -/
  interval : Nat
  /-- HRT_FRAME_NUM (Table 24-10; 0) -/
  frame : Nat
  /-- a tick has occurred in READY (R42; no) -/
  inFrame : Bool
  /-- ORIGIN_TS of the last SYNC, in ns (R30, R56; 0) -/
  lastOrigin : Nat
  /-- local receive time and t1 of the last SYNC, in 2⁻⁸ ns (R33; 0) -/
  lastT2 : Int
  lastT1 : Int
  /-- SYNCs since the last DELAY_REQ (R32; 0) -/
  syncCount : Nat
  /-- delay samples with the master, newest first, in 2⁻⁸ ns (R32; none) -/
  samples : List Int
  /-- eight new samples are awaited (R36; no) -/
  holdover : Bool
  /-- the DELAY_REQ in flight to each device: SEQ, t3, t1′, t2′ (R33; none) -/
  delayOut : Sparse (Nat × Int × Int × Int)
  /-- latest path delay to each device, ns (R46; none) -/
  pathDelay : Sparse Nat
  /-- last device of the deputy's sweep (R46; none) -/
  sweepAt : Nat
  /-- BCAST_NS last received from the deputy (R46; none) -/
  bcastNs : Option Nat
  /-- send times of the last 64 broadcasts, ns (R46; none) -/
  sendTimes : List Nat
  /-- members of the herd known to the master (R475; none) -/
  members : List Nat
  /-- candidates that wait for JOIN_ACK: device and digest bytes (R493; none) -/
  candidates : List (Nat × List Byte)
  /-- pending frame change: K_E, P ns, set guard ns, SLIP_MAX (R40; none) -/
  change : Option (Nat × Nat × Nat × Nat)
  /-- set guard in ns (R45; 10,000) -/
  setGuard : Nat
  /-- the plan held (R477; none) -/
  plan : Option Plan
  /-- PLAN_DIGEST of quotes (Table 23-4; 48 zero bytes) -/
  planDigest : List Byte
  /-- order of the HERD_JOIN pending (R143; none), and the herd time at which it entered HERD -/
  joinCmd : Option Nat
  enteredHerd : Nat
  /-- herd time at which the candidate locked and first sent JOIN (R475; none) -/
  joinSent : Option Nat
  /-- admitted: READY from the next tick (R476; no) -/
  admitted : Bool
  /-- rejoining under R477 (no) -/
  rejoining : Bool
  /-- slip requests recorded by master and deputy (R51, R52; none) -/
  records : List SlipRecord
  /-- windows decided: frame, s, whether held (R51; none) -/
  decided : List (Nat × Nat × Bool)
  /-- consecutive slips of a tick (R51; 0) -/
  slipRun : Nat × Nat
  /-- own requests sent: frame, s, cause, engine, queue (R49; none) -/
  sent : List SlipRecord
  /-- further conditions of windows, causes and engines already requested, counted locally (R49; 0) -/
  further : Nat
  /-- conditions counted as unrequested overruns in their windows (R50; none) -/
  overruns : List SlipRecord
  /-- slips applied: NEW_SLIP_COUNT and details, newest first, 256 (R61; none) -/
  log : List SlipLog
  /-- SEQ of the next message, by TYPE (R29; 0) -/
  seqOut : Sparse Nat
  /-- last SEQ taken, by (TYPE, sender, EPOCH) (R548; none) -/
  seqIn : List ((Nat × Nat × Nat) × Nat)
  /-- a held tick was taken early: frame work waits for it again (R54; no) -/
  diverged : Bool
  /-- herd time at which the tick of `frame` occurred (R38; 0) -/
  tickAt : Nat
  /-- herd time of the next SYNC this master sends (R32, R56; 0) -/
  nextSync : Nat
deriving DecidableEq, Repr

/-- Error records and CFG_ERR_STATUS (R422 to R425). -/
structure Errors where
  /-- newest first, at most 4,096 (none) -/
  records : List ErrRec
  /-- CFG_ERR_STATUS.LAST, 32 bits (0) -/
  last : Nat
  /-- OVERWRITTEN, 16 bits (0) -/
  overwritten : Nat
  /-- FATAL_PRIOR (0) -/
  fatalPrior : Bool
  /-- changes of state, steps of the counter and ticks in READY, which end a span of R423; MODEL -/
  spanBreaks : Nat
deriving DecidableEq, Repr

/-- One throttle reason (Table 19-5). -/
structure Throttle where
  duration : Nat
  starts : Nat
  lastStart : Nat
  active : Bool
  /-- THROTTLE_START posted in this frame (R436) -/
  posted : Bool
deriving DecidableEq, Repr

/-- Power and cooling (file 19). -/
structure Power where
  /-- PWR_STATUS.BUBBLES, n in effect (R431; 0) -/
  n : Nat
  /-- P_IN W, V_IN 10 mV, input current mA of the last interval (R429; 0) -/
  pIn : Nat
  vIn : Nat
  iIn : Nat
  /-- powers of the last 100 intervals, newest first (R430; none) -/
  recent : List Nat
  /-- the sustained cap is active (R430; no) -/
  capActive : Bool
  /-- the effective cap alone would be active by the rule of R430 (R435; no) -/
  capAlone : Bool
  /-- BRAKE applied (R438; no), INPUT_UV acting (R439; no) -/
  brake : Bool
  uv : Bool
  /-- regulators whose alert is raised (R437; none), and the forced lowest state -/
  alerts : List Nat
  forced : Bool
  /-- die floor of R440, 0 to 56 (0) -/
  dieFloor : Nat
  /-- latest readings of the dies, °C (R429; none) -/
  temps : List Nat
  /-- a die reads 115 °C or above: the module reset of R441 is 1 ms away (no) -/
  thermalPending : Bool
  /-- PWR_STATUS.CLOCK (Table 19-13; 0) -/
  clock : Nat
  /-- PWR_STATUS.STOPPED (R442; 0) -/
  stopped : Bool
  /-- PWR_STATUS.THERMAL_RESET (0 at power-up) -/
  thermalReset : Bool
  /-- the eight throttle reasons, code 1 first (R436; 0) -/
  reasons : List Throttle
  /-- caps of the ports: PF in PWR_CAP; MGT 0 and 1: CAP_W and BRAKE_CAP_W, 0 not set (R146; 0) -/
  mgtCaps : List (Nat × Nat)
  /-- effective cap, brake cap and mode in force (R146; 6,000, 3,000, 0) -/
  cap : Nat
  brakeCap : Nat
  mode : Nat
  /-- highest 1 µs power of the frame (R434; 0), and whether POWER_CAP or CURRENT inserted bubbles in it -/
  framePeak : Nat
  frameCapped : Bool
  /-- a reason that holds boost back acted in the frame (R434; no) -/
  frameHot : Bool
deriving DecidableEq, Repr

/-- A management port (R508 to R511). -/
structure MgtPort where
  /-- MGT_STATUS EID (Table 24-12; 0) -/
  eid : Nat
  /-- dynamic address, when valid (0) -/
  da : Option Nat
  /-- staging area, the bytes staged (R510; none) -/
  staged : List Byte
  /-- order of the DESCRIPTOR outstanding (R509; none) -/
  outstanding : Option Nat
deriving DecidableEq, Repr

/-- A keyed IDE stream (R499): its number, link or selective, Secure or Insecure, its key and, of a selective stream, the address
association blocks as first and last address. -/
structure IdeStream where
  number : Nat
  link : Bool
  secure : Bool
  key : List Byte
  blocks : List (Nat × Nat)
deriving DecidableEq, Repr

/-- Management ports, debug, identity and IDE (file 23). -/
structure Mgt where
  ports : List MgtPort
  /-- latest challenge, its herd time, not yet answered (R514; none) -/
  challenge : Option (List Byte × Nat)
  /-- failures counted (R514; 0) -/
  failures : Nat
  /-- scope granted; 0 while locked (R515; 0) -/
  scope : Nat
  unlocked : Bool
  /-- QUOTE_NUMBER of the last quote (Table 23-4; 0) -/
  quotes : Nat
  /-- IDE streams with keys (R499; none) -/
  ide : List IdeStream
  /-- IDE integrity failures counted (R501; 0) -/
  ideFailures : Nat
deriving DecidableEq, Repr

/-- What is due at a tick (R406 step 1). -/
inductive Due where
  | regionIn (ctx region cmd : Nat)
  | regionOut (ctx region cmd : Nat)
  | power (cmd : Nat)
  | batch (cmd frame : Nat) (list : List Nat)
  | close (stream cmd stop : Nat)
  | policy (ctx layer cap pol cmd : Nat)
deriving DecidableEq, Repr

/-- Counts that the manual keeps and that no group of Table 23-8 returns. -/
structure Tally where
  /-- events not signalled by commands of an ended frame (R110; 0) -/
  discardedSignals : Nat
  /-- missed fills (R118; 0) -/
  missedFills : Nat
  /-- NaN logits taken as −∞ (R223; 0) -/
  nanLogits : Nat
  /-- pieces that each mover has served (R287; 0) -/
  pieces : Sparse Nat
  /-- participants that exchanges have skipped (R487; 0) -/
  skipped : Nat
deriving DecidableEq, Repr

/-- What the block has sent, in order. MODEL: the state's output list. -/
inductive Out where
  /-- an MSI-X message (R87) -/
  | msix (fn vector : Nat)
  /-- a herd-control message handed to the transport for a device (R29) -/
  | herd (dst : Nat) (m : HerdMsg)
  /-- a packet on a link (R387) -/
  | packet (link : Nat) (p : Packet)
  /-- a flit on a link, all 256 bytes (R356) -/
  | flit (link : Nat) (bytes : List Byte)
  /-- a codeword of a link: the PAM4 levels on each active lane (R354) -/
  | codeword (link : Nat) (lanes : List (Nat × List Nat))
  /-- a CTRL degrade message: lane and last accepted SEQ (R362) -/
  | degrade (link lane lastSeq : Nat)
  /-- a management response: CMD, RESULT, TAG and body (R509) -/
  | mgt (port cmd result tag : Nat) (body : List Byte)
  /-- an MCTP control response (R508) -/
  | mctp (port code : Nat) (body : List Byte)
  /-- a SYNC_IO pulse at a tick (R26) -/
  | syncPulse (tick : Nat)
  /-- FAULT_N driven (R421) -/
  | faultN (low : Bool)
  /-- a chain offer, its answer, a piece notice (R315) -/
  | chainOffer (dev opcode srcAddr destAddr length : Nat)
  | chainReady (dev : Nat)
  | pieceNotice (dev piece : Nat) (poisoned : Bool)
  /-- a drop notice acknowledged (R420) -/
  | dropAck (home : Nat)
  /-- a drop notice to a fold neighbour after a directory-set failure (R420) -/
  | dropNotice (dev : Nat)
  /-- KV pages and the fed token handed over, and the answer of a destination (R253) -/
  | handover (dev stream layoutId tokens fed : Nat) (pages : List (List Granule))
  | handoverAnswer (dev status : Nat)
  /-- the answer to a configuration request: retry, or data (R468) -/
  | cfgRetry (fn : Nat)
  | cfgData (fn offset value : Nat)
  /-- the master's report that the set guard, in ns, falls below G_min, in µs (R45) -/
  | guardReport (setNs gminUs : Nat)
  /-- a master's report that it stops acting as master, with the higher EPOCH (R58) -/
  | steppedDown (epoch : Nat)
  /-- an IDE integrity failure of a stream, reported through AER (R501) -/
  | aer (stream : Nat)
deriving DecidableEq, Repr

/-- The state of the block. -/
structure State where
  boot : Boot
  fuse : Fuse
  regs : Regs
  /-- the 17 functions, the PF first (R496) -/
  fns : List FnState
  host : HostMem
  /-- accepted commands without a record, in acceptance order (R71; none) -/
  cmds : List FleosCmd
  nextOrder : Nat
  contexts : Sparse Context
  /-- streams, by slot (R210; none) -/
  streams : Sparse Stream
  /-- use counts that are not 0, 16 bits, by slot (R210; 0 DC) -/
  slotUses : Sparse Nat
  due : List Due
  eng : Engines
  mem : MemState
  links : List Link
  fab : Fabric
  herd : Herd
  errs : Errors
  pwr : Power
  mgt : Mgt
  /-- 64-bit counters that are not 0, by (GROUP × 2¹⁶ + INDEX) × 2³² + SCOPE (R513; 0) -/
  counters : Sparse Nat
  tally : Tally
  /-- MODEL: how many free values have been taken (log entry 2) -/
  free : Nat
  /-- MODEL: what the block has sent, oldest first (log entry 3) -/
  out : List Out
  /-- commands waiting, first in, first out -/
  pending : List Instr
deriving DecidableEq, Repr

def StackState.reset : StackState :=
  { step := 0, hottest := 0, highest := 0, critical := false, cool := false, postponed := [], exhausted := [],
    spares := [], selfRefresh := false }

def Link.reset : Link :=
  { state := 0, lanes := 0, trainedWidth := 0, lrev := false, disReason := 0, peerKind := 0, peerPort := 0,
    peerId := 0, admitted := none, txSeq := 0, replay := [], waiting := [], credits := [256, 256, 256, 256],
    owed := [0, 0, 0, 0], rxNext := 0, nakSent := false, ackValid := false, delivered := [], replays := 0,
    replayWindow := 0, sameReplays := 0, degrading := none, tx := TxStream.reset, rxPos := none }

def FnState.reset : FnState :=
  { dirBase := 0, dbBase := 0, enable := false, walking := false, walkDue := true, rings := [], refused := [],
    seen := [], walkFailed := [], ignored := [], ignoredCount := 0, eventsLost := 0, eventsDropped := 0, msix := [] }

def Regs.reset : Regs :=
  { cfgGuard := 0x00010014, hrtFrame := 0x4000A01F4, hrtSync := 0x00030803, hrtCtrl := 0x00640A01, syncNow := 0x00030803, ctrlNow := 0x00640A01, pwrCtrl := 0,
    pwrCap := 0x0BB81770, pwrLimits := 0x2EB1, pwrTherm := 0x0364, memLinearLo := 0, memLinearHi := 0,
    memTherm := 0x0069235F, lnkDegrade := 0x01900410, fabTransport := 0x00010614, mgtCtrl := 7, locked := false,
    writesIgnored := 0, dbgHold := 0, dbgIgnored := 0 }

def Herd.reset : Herd :=
  { time := 0, frac := 0, rate := 0, freq := 0, locked := false, lockRun := 0, epoch := 0, masterDev := 0,
    isMaster := false, isDeputy := false, deputyDev := 0xFFFF, heard := false, steppedSync := false,
    steppedDelay := false, t0 := 0, k0 := 0, period := 500000, s := 0, guard := 10000, slipMax := 4, gminUs := 0,
    guardNext := none, interval := 3, frame := 0, inFrame := false, lastOrigin := 0, lastT2 := 0, lastT1 := 0, syncCount := 0,
    samples := [], holdover := false, delayOut := [], pathDelay := [], sweepAt := 0, bcastNs := none, sendTimes := [],
    members := [], candidates := [], change := none, setGuard := 10000, plan := none,
    planDigest := List.replicate 48 0, joinCmd := none, enteredHerd := 0, joinSent := none, admitted := false,
    rejoining := false, records := [], decided := [], slipRun := (0, 0), sent := [], further := 0,
    overruns := [], log := [], seqOut := [],
    seqIn := [], diverged := false, tickAt := 0, nextSync := 0 }

def Power.reset : Power :=
  { n := 0, pIn := 0, vIn := 0, iIn := 0, recent := [], capActive := false, capAlone := false, brake := false, uv := false,
    alerts := [], forced := false, dieFloor := 0, temps := [], thermalPending := false, clock := 0, stopped := false,
    thermalReset := false,
    reasons := List.replicate 8
      { duration := 0, starts := 0, lastStart := 0, active := false, posted := false },
    mgtCaps := [(0, 0), (0, 0)], cap := 6000, brakeCap := 3000, mode := 0, framePeak := 0, frameCapped := false,
    frameHot := false }

def Mgt.reset : Mgt :=
  { ports := List.replicate 2 { eid := 0, da := none, staged := [], outstanding := none }, challenge := none,
    failures := 0, scope := 0, unlocked := false, quotes := 0, ide := [], ideFailures := 0 }

def Fabric.reset : Fabric :=
  { seqOut := [], requests := [], held := [], windows := [], nextTag := 0, unreachable := [], xfers := [],
    nextXfer := 0, exchanges := [], readies := [], copies := [], staleFills := [], directory := [], stamp := 0, handovers := [] }

def MemState.reset : MemState :=
  { cells := [], tags := [], cache := [], failed := [], stackStates := List.replicate 20 StackState.reset,
    meshFails := [], meshTries := [], corrected := [] }

def Tally.reset : Tally := { discardedSignals := 0, missedFills := 0, nanLogits := 0, pieces := [], skipped := 0 }

/-- The module right after power has arrived and the hardware has released D0 and D1: STATE is ROM (Table 21-2), and
every register holds its Reset value. -/
def State.reset : State :=
  { boot :=
      { mode := .rom, hold := 0, training := false, lastReset := 0, released := 2, perstLow := false, inputOn := true,
        railsUp := true, flowLow := false,
        straps := { hallRack := 0, tray := 0, slot := 0, linksplit := 0, role := 0, bell := 0 },
        thermalHold := false, faultHeld := false, ready := false, bar := 0, vfEnable := false, numVfs := 0, cablesOff := [] }
    fuse := { serial := 0, stepping := 1, baseW := 1200, roleMask := 15, linksplitMask := 127 }
    regs := Regs.reset
    fns := List.replicate 17 FnState.reset
    host := { cells := [], poisoned := [], held := [] }
    cmds := [], nextOrder := 0, contexts := [], streams := [], slotUses := [], due := []
    eng := { queues := [], tasks := [], fenced := [], held := [], events := [] }
    mem := MemState.reset
    links := List.replicate 64 Link.reset
    fab := Fabric.reset
    herd := Herd.reset
    errs := { records := [], last := 0, overwritten := 0, fatalPrior := false, spanBreaks := 0 }
    pwr := Power.reset
    mgt := Mgt.reset
    counters := [], tally := Tally.reset, free := 0, out := [], pending := [] }

end Sys2Proof.Machine
end

