-- ==== Sys2Proof/Machine/Mesh.lean ====
section
/-! DEFINITION. The package mesh (R9, R13, Table 1-2): the die at each position, die numbers, edges and the fixed route of a
packet. -/
namespace Sys2Proof.Machine

/-- Kinds of die (Table 1-1). -/
inductive DieKind where
  | compute | base | store | fabric | control | host
deriving DecidableEq, Repr

/-- The letters of Table 1-2. -/
def dieLetter (c : Char) : DieKind :=
  match c with
  | 'B' => .base
  | 'X' => .fabric
  | 'S' => .store
  | 'K' => .control
  | 'H' => .host
  | _ => .compute

/-- Table 1-2, row 0 first, column 0 first. -/
def dieRows : List String :=
  ["BXXSKHSXXB",
   "BCCCCCCCCB",
   "BCCSCCSCCB",
   "BCCCCCCCCB",
   "BCSCCCCSCB",
   "BCCCSSCCCB",
   "BCSCCCCSCB",
   "BCCSCCSCCB",
   "BCCCCCCCCB",
   "BXXSSSSXXB"]

/-- Every position as row, column and kind, in row-major order. -/
def meshGrid : List ((Nat × Nat) × DieKind) :=
  dieRows.zipIdx.flatMap (fun r => r.1.toList.zipIdx.map (fun c => ((r.2, c.2), dieLetter c.1)))

/-- Places of the dies of a kind, by number: row-major, but base dies down column 0 and then down column 9 (R9). -/
def diePlaces (k : DieKind) : List (Nat × Nat) :=
  let ps := (meshGrid.filter (fun e => e.2 == k)).map (·.1)
  if k = .base then ps.filter (fun p => p.2 == 0) ++ ps.filter (fun p => p.2 == 9) else ps

/-- Row and column of a die. -/
def diePlace (k : DieKind) (n : Nat) : Option (Nat × Nat) := (diePlaces k)[n]?

/-- Kind and number of the die at a position. -/
def dieAt (row col : Nat) : Option (DieKind × Nat) :=
  (meshGrid.find? (fun e => e.1 == (row, col))).map (fun e => (e.2, (diePlaces e.2).findIdx (· == (row, col))))

/-- The neighbour of a position above (0), below (1), to the left (2) or to the right (3) (the codes: log entry 32). -/
def meshNeighbour (row col dir : Nat) : Option (Nat × Nat) :=
  match dir with
  | 0 => if 1 ≤ row then some (row - 1, col) else none
  | 1 => if row < 9 then some (row + 1, col) else none
  | 2 => if 1 ≤ col then some (row, col - 1) else none
  | 3 => if col < 9 then some (row, col + 1) else none
  | _ => none

/-- An edge of the mesh as records name it: row × 10 + column of its sender, times 4, plus direction (Table 18-7). -/
def meshEdge (row col dir : Nat) : Nat := (row * 10 + col) * 4 + dir

/-- The sender of an edge, its direction and the receiving position; none for a number that names no edge. -/
def edgeEnds (edge : Nat) : Option ((Nat × Nat) × Nat × (Nat × Nat)) :=
  let p := (edge / 40, edge / 4 % 10)
  if edge < 400 then (meshNeighbour p.1 p.2 (edge % 4)).map (fun q => (p, edge % 4, q)) else none

/-- The direction of the next hop of a packet: along its column first, then along its row (R13); none at its destination. -/
def nextHop (at_ dst : Nat × Nat) : Option Nat :=
  if dst.1 < at_.1 then some 0 else if at_.1 < dst.1 then some 1
  else if dst.2 < at_.2 then some 2 else if at_.2 < dst.2 then some 3 else none

/-- The edges of the route of a packet, at most `n` of them. -/
def meshRoute : (n : Nat) → (at_ dst : Nat × Nat) → List Nat
  | 0, _, _ => []
  | n + 1, at_, dst =>
    match nextHop at_ dst with
    | none => []
    | some d =>
      match meshNeighbour at_.1 at_.2 d with
      | none => []
      | some q => meshEdge at_.1 at_.2 d :: meshRoute n q dst

/-- A packet for a destination may cross an edge: it is the next hop of its route from the edge's sender. -/
def edgeToward (edge : Nat) (dst : Nat × Nat) : Bool :=
  match edgeEnds edge with
  | some (p, d, _) => nextHop p dst == some d
  | none => false

end Sys2Proof.Machine
end

