-- ==== Sys2Proof/WellFormed.lean ====
section
/-! DEFINITION. Well-formed commands: every operand within the range the manual gives what it names. A meaning is total
all the same; statements about operands use this check. -/
namespace Sys2Proof

/-- Units of an engine (Table 1-3). -/
def Engine.units : Engine → Nat
  | .pe => 276480
  | .ge => 32000
  | .se => 20
  | .te => 36
  | .fe => 8

/-- ENGINE code (Table 4-1). -/
def Engine.code : Engine → Nat
  | .pe => 0
  | .ge => 1
  | .se => 2
  | .te => 3
  | .fe => 4

/-- The engine of a code. -/
def Engine.ofCode : Nat → Option Engine
  | 0 => some .pe
  | 1 => some .ge
  | 2 => some .se
  | 3 => some .te
  | 4 => some .fe
  | _ => none

/-- A PF or VF number (R496), a ring of Table 3-1 and a 32-bit index, or a management port. -/
def CmdSrc.wf : CmdSrc → Bool
  | .ring fn rn index => decide (fn ≤ 16) && decide (rn < 512) && decide (index < 2 ^ 32)
  | .mgt port => decide (port < 2)

def HostStore.wf (h : HostStore) : Bool := decide (h.addr + h.bytes.length ≤ 2 ^ 64)

def MgtHead.wf (h : MgtHead) : Bool := decide (h.reserved < 256) && decide (h.tag < 2 ^ 16)

def Granule.wf (g : Granule) : Bool := decide (g.payload.length = 64) && decide (g.tags.length = 8)

/-- The field widths of Table 2-2. -/
def HerdMsg.wf (m : HerdMsg) : Bool :=
  decide (m.type < 256) && decide (m.version < 256) && decide (m.srcDev < 2 ^ 16) && decide (m.epoch < 2 ^ 32)
  && decide (m.originTs < 2 ^ 64) && decide (m.correction < 2 ^ 32) && decide (m.seq < 2 ^ 32)
  && decide (m.body.length = 40)

/-- The field widths of Table 16-3. -/
def Packet.wf (p : Packet) : Bool :=
  decide (p.op < 256) && decide (p.pflags < 256) && decide (p.srcDev < 2 ^ 16) && decide (p.dstDev < 2 ^ 16)
  && decide (p.ctx < 256) && decide (p.len < 256) && decide (p.seq < 2 ^ 32) && decide (p.epoch < 2 ^ 16)
  && decide (p.tag < 2 ^ 16) && decide (p.addr < 2 ^ 64) && decide (p.aux < 2 ^ 32) && decide (p.status < 256)
  && decide (p.operand < 2 ^ 64) && p.granules.all Granule.wf

def TrainReport.wf (r : TrainReport) : Bool :=
  r.badCores.all (fun c => decide (c.2 < c.1.units)) && r.badChannels.all (fun c => decide (c < 640))
  && r.links.all (fun l => decide (l.link < 64) && decide (l.block.length = 16) && decide (l.lanes < 16))

/-- Every operand is in its range. -/
def Instr.wf : Instr → Bool
  | .ctxCreate c | .ctxDestroy c | .regionMap c | .regionUnmap c | .weightLoad c | .weightReplace c | .programLoad c
  | .programStart c | .programStop c | .streamOpen c | .streamClose c | .promptSubmit c | .batchSet c | .streamAbort c
  | .kvSpillPolicy c | .expertResidency c | .herdJoin c | .herdLeave c | .framePolicy c | .telemetryRead c
  | .attestQuote c | .recoveryEnter c | .recoveryExit c | .powerSet c | .fence c | .resume c | .chainOffer c
  | .chainReady c | .peerSourceTimeout c | .telemetryCoarse c => c.wf
  | .memTest c ds => c.wf && ds.all (fun d => decide (d.byteIndex < 72))
  | .pieceNotice c _ _ => c.wf
  | .descriptorIntake st | .doorbellPoll st | .tick st => st.all HostStore.wf
  | .completionRecord fn r | .msixModerationTimer fn r => decide (fn ≤ 16) && decide (r < 512)
  | .doorbellRead fn st => decide (fn ≤ 16) && st.all HostStore.wf
  | .ringNudge fn off sz st => decide (fn ≤ 16) && decide (off < 4096) && decide (sz ≤ 4096) && st.all HostStore.wf
  | .ringCtrl fn d st => decide (fn ≤ 16) && decide (d.length ≤ 8) && st.all HostStore.wf
  | .resetWalk fn | .functionLevelReset fn => decide (fn ≤ 16)
  | .msixUnmask fn v => decide (fn ≤ 16) && decide (v < 64)
  | .vfEnable _ n => decide (n ≤ 16)
  | .nop _ q | .endList _ q | .frameLoop _ q | .commandStart _ q | .taskIssue _ q | .commandRetire _ q
  | .stepPrep q | .sample q | .routeSelect q | .routePlan q | .routeScatter q | .routeGather q | .routeCombine q
  | .copy q | .replicate q | .schedule q | .kvPoolInit q | .kvAppend q | .kvGather q | .get q | .put q | .atomic q
  | .send q | .mbox q | .exchange q | .routeExchange q => decide (q < 64)
  | .fillGroupWrite c p g => decide (c < 16) && decide (p < 64) && decide (g < 4096)
  | .tileRun e u | .tend e u | .load e u _ | .store e u _ | .vop e u | .mma e u _ | .taskRepeat e u =>
    decide (u < e.units)
  | .kvSpill c | .reloadDone c | .replaceRewriteDone c => decide (c < 16)
  | .kvSpillDone c _ _ | .kvReturnDone c _ _ => decide (c < 16)
  | .scheduleIssue c p _ => decide (c < 16) && decide (p < 64)
  | .scheduleTransferDone _ => true
  | .loadReq p | .loadResp p | .storePacket p | .storeAck p | .atomicPacket p | .atomicResp p | .msg p | .msgAck p
  | .ready p | .block p | .blockEnd p | .blockAck p | .inv p | .invAck p => p.wf
  | .retxTimeout d _ => decide (d < 16384)
  | .sync m | .delayReq m | .delayResp m | .slipReq m | .slip m | .takeover m | .frameChange m | .join m
  | .joinAck m => m.wf
  | .syncInterval | .joinResend | .herdJoinTimeout | .herdForm | .guardPoint | .fallbackCheck | .guardWindowOpen
  | .backupBroadcast | .masterLost | .holdoverExpiry => true
  | .refresh st pc b _ => decide (st < 20) && decide (pc < 64) && decide (b < 64)
  | .stackTempReading st ts => decide (st < 20) && decide (ts ≠ [])
  | .stackThrottleFall st => decide (st < 20)
  | .storeScrub _ bad => bad.all (fun x => match x with
    | .weightBank e _ => e == .pe || e == .ge
    | .instrBuffer e _ => e == .pe || e == .ge
    | .replayBuffer l => decide (l < 64)
    | .control c => decide (1 ≤ c ∧ c ≤ 4)
    | _ => true)
  | .meshFlitReceive e _ _ _ => (Machine.edgeEnds e).isSome
  | .flitReceive l f _ => decide (l < 64) && decide (f.length = 256)
  | .nak l a => decide (l < 64) && decide (a < 4096)
  | .replayTimeout l | .linkDown l => decide (l < 64)
  | .laneLockLoss l _ e => decide (l < 64) && decide (e.length = 4)
  | .degradeMessage l n a => decide (l < 64) && decide (n < 4) && decide (a < 4096)
  | .retrainComplete l a => decide (l < 64) && decide (a < 4096)
  | .linkRetrainAttempt l _ => decide (l < 64)
  | .identityBlock r => decide (r.link < 64) && decide (r.block.length = 16) && decide (r.lanes < 16)
  | .controlInterval _ _ _ | .brakeN _ _ | .inputUv _ | .inputUvClear _ | .inputLockout _ | .inputQualified _ => true
  | .vrAlert r | .vrAlertClear r => decide (r < 64)
  | .dieTempReading ts => decide (ts ≠ [])
  | .dieFloorStep | .thermalReset | .flowFail _ | .flowHoldEnd | .perstN _ | .domainRelease | .secLock _
  | .perstNRelease | .railsUp => true
  | .moduleReset c => decide (c ≤ 4)
  | .romChecks _ _ _ d => decide (d.length = 48)
  | .trainingComplete r => r.wf
  | .descriptor p h b => decide (p < 2) && h.wf && decide (b.length = 64)
  | .fetch p h _ _ | .mgtState p h | .mgtReset p h _ => decide (p < 2) && h.wf
  | .debugChallenge p h _ | .debugResponse p h _ => decide (p < 2) && h.wf
  | .setEndpointId p e => decide (p < 2) && decide (e < 256)
  | .getEndpointId p | .getEndpointUuid p | .getMctpVersionSupport p _ | .getMessageTypeSupport p => decide (p < 2)
  | .dynamicAddressAssignment p a => decide (p < 2) && decide (a < 128)
  | .ideKm n l k => decide (n < 256) && decide (k.blocks.length ≤ 4) && (!l || k.blocks.isEmpty)
  | .ideIntegrityFailure n => decide (n < 256)
  | .dbgReset d | .mgtCtrl d => decide (d.length ≤ 8)
  | .registerWrite fn off _ => decide (fn ≤ 16) && decide (off < 65536)
  | .cableSupplyOverload c | .cableSupplyRetry c _ => decide (c < 8)
  | .dropNotice h => decide (h < 16384)
  | .chainOfferReceive d o _ _ _ => decide (d < 16384) && decide (o < 256)
  | .kvHandover d _ _ _ _ ps => decide (d < 16384) && ps.all (fun p => p.all Granule.wf)
  | .configurationRequest fn _ o v => decide (fn ≤ 16) && decide (o < 4096) && decide (v < 2 ^ 32)

end Sys2Proof
end

