-- ==== Sys2Proof/Machine/Ops.lean ====
section
/-! DEFINITION. The shared operations over tables, bytes, host memory, package memory, counters, error records, events and
completions. -/
namespace Sys2Proof.Machine

/-- What a step answers. -/
abbrev Answer := Host.Outcome State Fault Refusal

/-! ### Tables -/

/-- The value of a key. -/
def tabGet {α : Type} : Sparse α → Nat → Option α
  | [], _ => none
  | (k, v) :: r, i => if k = i then some v else tabGet r i

/-- A key given a value; keys stay ascending. -/
def tabSet {α : Type} : Sparse α → Nat → α → Sparse α
  | [], i, w => [(i, w)]
  | (k, v) :: r, i, w =>
    if i < k then (i, w) :: (k, v) :: r else if k = i then (i, w) :: r else (k, v) :: tabSet r i w

/-- A key taken out. -/
def tabDel {α : Type} (m : Sparse α) (i : Nat) : Sparse α := m.filter (fun e => decide (e.1 ≠ i))

/-- A key's value changed, where it has one. -/
def tabUpd {α : Type} (m : Sparse α) (i : Nat) (f : α → α) : Sparse α :=
  match tabGet m i with
  | some v => tabSet m i (f v)
  | none => m

/-- A number kept per key, 0 where none is kept. -/
def tabNat (m : Sparse Nat) (i : Nat) : Nat := (tabGet m i).getD 0

/-- A number set; a 0 is not kept. -/
def tabPut (m : Sparse Nat) (i n : Nat) : Sparse Nat := if n = 0 then tabDel m i else tabSet m i n

/-- Keys strictly ascending. -/
def ascending {α : Type} : Sparse α → Bool
  | [] => true
  | [_] => true
  | (a, _) :: (b, w) :: r => decide (a < b) && ascending ((b, w) :: r)

/-! ### Bytes and fields (R4) -/

/-- Little-endian value of bytes. -/
def leNat : List Byte → Nat
  | [] => 0
  | b :: r => b.toNat + 256 * leNat r

/-- `n` little-endian bytes of a value. -/
def natLe : (n v : Nat) → List Byte
  | 0, _ => []
  | n + 1, v => BitVec.ofNat 8 v :: natLe n (v / 256)

/-- `len` bytes from offset `off`, zero beyond the end. -/
def slice (bs : List Byte) (off len : Nat) : List Byte :=
  let t := (bs.drop off).take len
  t ++ List.replicate (len - t.length) 0

/-- The field of `len` bytes at `off`. -/
def fieldAt (bs : List Byte) (off len : Nat) : Nat := leNat (slice bs off len)

/-- Bits [hi:lo] of a number. -/
def bitsOf (v hi lo : Nat) : Nat := v / 2 ^ lo % 2 ^ (hi + 1 - lo)

/-- Bit `i` of a number. -/
def bitOf (v i : Nat) : Bool := v / 2 ^ i % 2 == 1

/-- Bytes put in at an offset. -/
def splice (bs : List Byte) (off : Nat) (xs : List Byte) : List Byte :=
  bs.take off ++ xs ++ bs.drop (off + xs.length)

/-- A truth value as a bit. -/
def bitNat (b : Bool) : Nat := if b then 1 else 0

/-- Two's complement value of a field of `w` bits. -/
def signedOf (w v : Nat) : Int := if v < 2 ^ (w - 1) then (v : Int) else (v : Int) - 2 ^ w

/-- An integer as a field of `w` bits. -/
def fieldOf (w : Nat) (i : Int) : Nat := (i % (2 ^ w : Int)).toNat

/-- The difference of 32-bit indices (R70). -/
def diff32 (a b : Nat) : Nat := (a + 2 ^ 32 - b % 2 ^ 32) % 2 ^ 32

/-! ### Byte memories -/

/-- A byte of a memory whose unlisted bytes are 0. -/
def cellGet (m : List Host.Cell) (a : Nat) : Byte := (tabGet m a).getD 0

/-- A byte written; a 0 is not listed. -/
def cellSet (m : List Host.Cell) (a : Nat) (b : Byte) : List Host.Cell := if b = 0 then tabDel m a else tabSet m a b

def cellsGet (m : List Host.Cell) (a n : Nat) : List Byte := (List.range n).map (fun i => cellGet m (a + i))

def cellsSet (m : List Host.Cell) (a : Nat) : List Byte → List Host.Cell
  | [] => m
  | b :: r => cellsSet (cellSet m a b) (a + 1) r

/-- The canonical form: ascending addresses, no zero byte. -/
abbrev Memory.wf (m : List Host.Cell) : Prop := ascending m = true ∧ m.all (fun c => decide (c.2 ≠ 0)) = true

/-! ### Free values -/

/-- A fresh free number below `n`, and the state that has used it. -/
def takeNat (n : Nat) (s : State) : Nat × State := (Config.freeNat s.free % n, { s with free := s.free + 1 })

/-- A fresh free truth value. -/
def takeBool (s : State) : Bool × State := (Config.freeBool s.free, { s with free := s.free + 1 })

/-! ### Host memory (R62) -/

def hostBytes (s : State) (a n : Nat) : List Byte := cellsGet s.host.cells a n

/-- A read of these bytes ends poisoned (Table 18-3). -/
def hostBad (s : State) (a n : Nat) : Bool := s.host.poisoned.any (fun p => decide (a ≤ p) && decide (p < a + n))

/-- Bytes put in host memory. -/
def hostPut (a : Nat) (bs : List Byte) (s : State) : State :=
  { s with host := { s.host with
      cells := cellsSet s.host.cells a bs
      poisoned := s.host.poisoned.filter (fun p => !(decide (a ≤ p) && decide (p < a + bs.length))) } }

/-- The stream that would carry a request of the module's to this address is Insecure (R501): a selective stream by its
address association blocks, the link stream for every address. -/
def insecureAt (s : State) (a : Nat) : Bool :=
  s.mgt.ide.any (fun k => !k.secure && (k.link || k.blocks.any (fun b => decide (b.1 ≤ a ∧ a ≤ b.2))))

/-- A read of these bytes gives nothing now: it waits for its stream, or ends poisoned. -/
def hostUnread (s : State) (a n : Nat) : Bool := insecureAt s a || hostBad s a n

/-- A request waits for its stream (R501). -/
def holdReq (r : HostReq) (s : State) : State := { s with host := { s.host with held := s.host.held ++ [r] } }

/-- A write of the module to host memory. -/
def hostWrite (a : Nat) (bs : List Byte) (s : State) : State :=
  { s with host := (if insecureAt s a then holdReq (.write a bs) s else hostPut a bs s).host }

/-- A store of the host itself. -/
def hostStore (s : State) (h : HostStore) : State :=
  let s := hostPut h.addr h.bytes s
  if h.poison then { s with host := { s.host with
    poisoned := (List.range h.bytes.length).map (fun i => h.addr + i) ++ s.host.poisoned } }
  else s

def hostStores (hs : List HostStore) (s : State) : State := hs.foldl hostStore s

/-! ### Modes, time, output, counters -/

def inMode (s : State) (m : Mode) : Bool := s.boot.mode == m

/-- HERD or READY. -/
def inHerd (s : State) : Bool := s.boot.mode == .herd || s.boot.mode == .ready

/-- The TIME of records: herd time, or 0 outside HERD and READY (R80, R85, R422). -/
def stampOf (s : State) : Nat := if inHerd s then s.herd.time else 0

def emit (o : Out) (s : State) : State := { s with out := s.out ++ [o] }

/-- The key of a counter (R513). -/
def counterKey (group index scope : Nat) : Nat := (group * 2 ^ 16 + index) * 2 ^ 32 + scope

def bump (group index scope n : Nat) (s : State) : State :=
  let k := counterKey group index scope
  { s with counters := tabPut s.counters k ((tabNat s.counters k + n) % 2 ^ 64) }

def setCounter (group index scope n : Nat) (s : State) : State :=
  { s with counters := tabPut s.counters (counterKey group index scope) n }

def counterOf (s : State) (group index scope : Nat) : Nat := tabNat s.counters (counterKey group index scope)

/-! ### Updates of one part -/

def updFn (f : Nat) (g : FnState → FnState) (s : State) : State := { s with fns := s.fns.modify f g }

def fnOf (s : State) (f : Nat) : FnState := s.fns.getD f FnState.reset

def updRing (f n : Nat) (g : Ring → Ring) (s : State) : State :=
  updFn f (fun x => { x with rings := tabUpd x.rings n g }) s

def updCtx (c : Nat) (g : Context → Context) (s : State) : State := { s with contexts := tabUpd s.contexts c g }

def updStream (slot : Nat) (g : Stream → Stream) (s : State) : State := { s with streams := tabUpd s.streams slot g }

def updLink (l : Nat) (g : Link → Link) (s : State) : State := { s with links := s.links.modify l g }

def linkOf (s : State) (l : Nat) : Link := s.links.getD l Link.reset

def updStack (n : Nat) (g : StackState → StackState) (s : State) : State :=
  { s with mem := { s.mem with stackStates := s.mem.stackStates.modify n g } }

def stackAt (s : State) (n : Nat) : StackState := s.mem.stackStates.getD n StackState.reset

/-- Index of a queue in the table of queues. -/
def queueKey (e : Engine) (q : Nat) : Nat := e.code * 64 + q

def queueAt (s : State) (e : Engine) (q : Nat) : Option Queue := tabGet s.eng.queues (queueKey e q)

def setQueue (e : Engine) (q : Nat) (x : Queue) (s : State) : State :=
  { s with eng := { s.eng with queues := tabSet s.eng.queues (queueKey e q) x } }

def updQueue (e : Engine) (q : Nat) (g : Queue → Queue) (s : State) : State :=
  { s with eng := { s.eng with queues := tabUpd s.eng.queues (queueKey e q) g } }

def ctxAt (s : State) (c : Nat) : Option Context := tabGet s.contexts c

def progAt (s : State) (c p : Nat) : Option Program := (ctxAt s c).bind (fun x => tabGet x.programs p)

def updProg (c p : Nat) (g : Program → Program) (s : State) : State :=
  updCtx c (fun x => { x with programs := tabUpd x.programs p g }) s

def streamAt (s : State) (slot : Nat) : Option Stream := tabGet s.streams slot

/-- An open stream by its number (R210). -/
def streamNo (s : State) (n : Nat) : Option Stream :=
  match tabGet s.streams (n % 65536) with
  | some x => if x.number = n then some x else none
  | none => none

/-! ### MSI-X (R87) -/

def msixOf (f : FnState) (v : Nat) : MsixEntry :=
  (tabGet f.msix v).getD { addr := 0, data := 0, masked := true, pendingBit := false }

/-- A source's condition to send has arisen: a message, or the pending bit while the vector is masked. -/
def signalVector (fn v : Nat) (s : State) : State :=
  if (msixOf (fnOf s fn) v).masked then
    updFn fn (fun f => { f with msix := tabSet f.msix v { msixOf f v with pendingBit := true } }) s
  else if insecureAt s (msixOf (fnOf s fn) v).addr then holdReq (.message fn v) s
  else emit (.msix fn v) s

/-- The requests that waited go out in order; those whose stream is still Insecure wait on (R501). -/
def releaseHeld (s : State) : State :=
  s.host.held.foldl (fun s r =>
    match r with
    | .write a bs => hostWrite a bs s
    | .message fn v => if insecureAt s (msixOf (fnOf s fn) v).addr then holdReq r s else emit (.msix fn v) s)
    { s with host := { s.host with held := [] } }

/-- The ring's unsignalled records are signalled. -/
def signalRing (fn n : Nat) (s : State) : State :=
  match tabGet (fnOf s fn).rings n with
  | some r => signalVector fn r.vector (updRing fn n (fun x => { x with unsignalled := 0 }) s)
  | none => s

/-- One more unsignalled record; the count of R87 may be reached. -/
def recordSignal (fn n : Nat) (s : State) : State :=
  match tabGet (fnOf s fn).rings n with
  | some r =>
    let s := updRing fn n (fun x => { x with unsignalled := x.unsignalled + 1 }) s
    if r.irqEn && decide (max 1 r.modCount ≤ r.unsignalled + 1) then signalRing fn n s else s
  | none => s

/-! ### Rings (R70, R77) -/

def Ring.size (r : Ring) : Nat := 2 ^ r.log2

/-- PHASE of index `i` (R70). -/
def phaseBit (log2 i : Nat) : Nat := 1 - i / 2 ^ log2 % 2

/-- The ring status record (Table 3-6). -/
def statusRecord (accepted completed st resets time : Nat) : List Byte :=
  natLe 4 accepted ++ natLe 4 completed ++ natLe 1 st ++ natLe 3 0 ++ natLe 4 resets ++ natLe 8 time ++ natLe 40 0

/-- The status record of a ring written as it stands. -/
def publish (fn n : Nat) (s : State) : State :=
  match tabGet (fnOf s fn).rings n with
  | some r =>
    if r.type = 2 then s
    else
      hostWrite r.status (statusRecord r.accepted (if r.type = 1 then r.completed else 0) r.phase r.resets (stampOf s)) s
  | none => s

/-! ### Events (R85, R86) -/

/-- The event ring of a function. -/
def eventRing (f : FnState) : Option (Nat × Ring) := f.rings.find? (fun e => e.2.type == 3 && e.2.phase == 1)

/-- Records the host can still take from a ring of the module's. -/
def roomOf (r : Ring) (written : Nat) : Nat := r.size - diff32 written r.hostIndex

/-- An event record written to ring `n` of a function (Table 3-11). -/
def writeEvent (fn n : Nat) (r : Ring) (code reason about : Nat) (data : List Byte) (s : State) : State :=
  let rec_ := natLe 2 code ++ natLe 1 (phaseBit r.log2 r.accepted) ++ natLe 1 reason ++ natLe 4 r.accepted
    ++ natLe 8 (stampOf s) ++ natLe 2 about ++ slice data 0 14
  let s := hostWrite (r.base + r.accepted % r.size * 32) rec_ s
  let s := updRing fn n (fun x => { x with accepted := (x.accepted + 1) % 2 ^ 32 }) s
  recordSignal fn n (publish fn n s)

/-- An event for a function (R86). -/
def postEvent (fn code reason about : Nat) (data : List Byte) (s : State) : State :=
  match eventRing (fnOf s fn) with
  | none => updFn fn (fun f => { f with eventsDropped := f.eventsDropped + 1 }) s
  | some (n, r) =>
    if roomOf r r.accepted = 0 || decide ((fnOf s fn).eventsLost ≠ 0) then
      updFn fn (fun f => { f with eventsLost := f.eventsLost + 1 }) s
    else writeEvent fn n r code reason about data s

/-- The record of events lost, at the first read that shows room (R86). -/
def postLost (fn : Nat) (s : State) : State :=
  match eventRing (fnOf s fn) with
  | none => s
  | some (n, r) =>
    let lost := (fnOf s fn).eventsLost
    if lost = 0 || roomOf r r.accepted = 0 then s
    else writeEvent fn n r 4 0 n (natLe 4 lost) (updFn fn (fun f => { f with eventsLost := 0 }) s)

/-! ### Error records (R422 to R425) -/

/-- A contained record of a class with every other field at its value for none. -/
def blankErr (cls : Nat) : ErrRec :=
  { number := 0, cls, severity := 1, unitKind := 0, unit := 0xFFFF, ctx := 0xFF, engine := 0xFF, queue := 0xFFFF,
    count := 1, time := 0, addr := 0, listIndex := 0xFFFFFFFF, task := 0xFFFFFFFF, instr := 0xFFFF,
    stream := 0xFFFFFFFF, detail := 0, span := (0, 0) }

/-- The span in which an occurrence of now falls (R423). -/
def spanOf (s : State) : Nat × Nat :=
  let p := if inHerd s then s.herd.period else bitsOf s.regs.hrtFrame 14 0 * 1000
  (if inMode s .ready then 0 else s.herd.time / max 1 p, s.errs.spanBreaks)

/-- A new span begins. -/
def breakSpan (s : State) : State := { s with errs := { s.errs with spanBreaks := s.errs.spanBreaks + 1 } }

def sameOccurrence (e r : ErrRec) (span : Nat × Nat) : Bool :=
  e.cls == r.cls && e.unitKind == r.unitKind && e.unit == r.unit && e.addr == r.addr && r.span == span

/-- An occurrence merged into its record, or written as a new one with its event (R423). -/
def recordErr (e : ErrRec) (s : State) : State :=
  let span := spanOf s
  if s.errs.records.any (fun r => sameOccurrence e r span) then
    { s with errs := { s.errs with records := s.errs.records.map (fun r =>
        if sameOccurrence e r span then { r with count := min 0xFFFF (r.count + 1) } else r) } }
  else
    let n := (s.errs.last + 1) % 2 ^ 32
    let full := decide (4096 ≤ s.errs.records.length)
    let e := { e with number := n, count := 1, time := stampOf s, span }
    let s := { s with errs := { s.errs with
      records := (e :: s.errs.records).take 4096
      last := n
      overwritten := if full then min 0xFFFF (s.errs.overwritten + 1) else s.errs.overwritten } }
    postEvent (if e.ctx = 0xFF then 0 else e.ctx + 1) 6 0 0xFFFF (natLe 4 n) s

/-- The number of the record an occurrence went to: the newest of its class. -/
def lastErrOf (s : State) (cls : Nat) : Nat := ((s.errs.records.find? (fun r => r.cls == cls)).map (·.number)).getD 0

/-! ### Local addresses (R14 to R16, R334, R335) -/

/-- What lies at a local address (Table 1-5). -/
inductive Place where
  | t1 | store | core | hole
deriving DecidableEq, Repr

def placeOf (a : Nat) : Place :=
  if a < 0x1E000000000 then .t1
  else if 0x20000000000 ≤ a ∧ a < 0x20400000000 then .store
  else if 0x28000000000 ≤ a ∧ a < 0x286C0000000 then
    let o := (a - 0x28000000000) % 0x20000000
    if o / 0x10000 < 5120 ∧ o % 0x10000 < 0xC000 then .core else .hole
  else if 0x2C000000000 ≤ a ∧ a < 0x2C140000000 then
    if (a - 0x2C000000000) % 0x10000000 / 0x10000 < 1600 then .core else .hole
  else .hole

/-- A linear band (R336). -/
def bandLinear (s : State) (b : Nat) : Bool :=
  if b < 64 then bitOf s.regs.memLinearLo b else bitOf s.regs.memLinearHi (b - 64)

/-- Stack and stack-internal address of a T1 address (R334). -/
def stackPlace (s : State) (x : Nat) : Nat × Nat :=
  let g := 20 * 2 ^ 30
  let b := x / g
  let o := x % g
  if bandLinear s b then (o / 2 ^ 30, b * 2 ^ 30 + o % 2 ^ 30)
  else
    let r := o / 2048
    (r % 20, b * 2 ^ 30 + r / 20 * 2048 + o % 2048)

/-- Stack × 64 + pseudo-channel of a T1 address (Table 14-1). -/
def channelOf (s : State) (x : Nat) : Nat :=
  let p := stackPlace s x
  p.1 * 64 + bitsOf p.2 16 11

/-- Bank and row of a stack-internal address (R335). -/
def bankRow (a : Nat) : Nat × Nat := (bitsOf a 22 17 ^^^ bitsOf a 28 23, 128 * bitsOf a 36 30 + bitsOf a 29 23)

/-! ### Granules (R14, R171, R412) -/

def zeroGran : Granule := { payload := List.replicate 64 0, tags := List.replicate 8 0 }

def poisonGran : Granule := { payload := List.replicate 64 0, tags := List.replicate 8 0xFF }

/-- All eight tags are 0xFF (R412). -/
def isPoison (g : Granule) : Bool := g.tags == List.replicate 8 0xFF

/-- One half, read by a peck read: 32 payload and 4 tag bytes (R340). -/
def halfOf (g : Granule) (h : Nat) : List Byte × List Byte := (slice g.payload (32 * h) 32, slice g.tags (4 * h) 4)

/-- A half whose four tags are 0xFF (R413). -/
def halfPoison (g : Granule) (h : Nat) : Bool := (halfOf g h).2 == List.replicate 4 0xFF

def rawGran (m : MemState) (a : Nat) : Granule :=
  { payload := cellsGet m.cells (a / 64 * 64) 64, tags := cellsGet m.tags (a / 64 * 8) 8 }

def rawPut (m : MemState) (a : Nat) (g : Granule) : MemState :=
  { m with cells := cellsSet m.cells (a / 64 * 64) (slice g.payload 0 64)
           tags := cellsSet m.tags (a / 64 * 8) (slice g.tags 0 8) }

/-! ### The write-back cache (R305 to R307) -/

/-- Cache mode: TRAINED or RECOVERY, and no serving context. -/
def cacheMode (s : State) : Bool :=
  (s.boot.mode == .trained || s.boot.mode == .recovery) && s.contexts.isEmpty

/-- A granule of T1 as the stacks return it (R345). -/
def t1Gran (s : State) (a : Nat) : Granule :=
  if s.mem.failed.contains (channelOf s a) then poisonGran else rawGran s.mem a

/-- A write to the stacks: to a failed pseudo-channel it is discarded with a record (R345). -/
def t1Put (a : Nat) (g : Granule) (s : State) : State :=
  let ch := channelOf s a
  if s.mem.failed.contains ch then
    recordErr { blankErr 9 with unitKind := 2, unit := ch / 64, addr := a / 64 * 64, detail := ch % 64 } s
  else bump 10 1 (ch / 64) 1 { s with mem := rawPut s.mem a g }

def lineAt (s : State) (set tag : Nat) : Option CacheLine :=
  s.mem.cache.find? (fun l => l.set == set && l.tag == tag)

/-- Address of granule `i` of a line. -/
def lineAddr (l : CacheLine) (i : Nat) : Nat := l.tag * 2 ^ 30 + l.set * 2 ^ 11 + i * 64

/-- The dirty granules written back, in ascending order. -/
def writeBack (l : CacheLine) (s : State) : State :=
  (List.range 32).foldl (fun s i =>
    if l.dirty.contains i then bump 8 2 0 1 (t1Put (lineAddr l i) (l.granules.getD i zeroGran) s) else s) s

def nextStamp (s : State) : Nat := 1 + s.mem.cache.foldl (fun n l => max n l.stamp) 0

/-- The line of an address is present and the most recently used: a hit, or a fill that replaces the least recently used
way of the set, the lower way first (R305). -/
def touchLine (a : Nat) (s : State) : State :=
  let set := bitsOf a 29 11
  let tag := bitsOf a 40 30
  match lineAt s set tag with
  | some l =>
    bump 8 0 0 1 { s with mem := { s.mem with cache := s.mem.cache.map (fun x =>
      if x == l then { x with stamp := nextStamp s } else x) } }
  | none =>
    let ways := s.mem.cache.filter (fun l => l.set == set)
    let free := (List.range 16).find? (fun w => !ways.any (fun l => l.way == w))
    let victim := ways.foldl (fun (m : Option CacheLine) l => match m with
      | none => some l
      | some v => if decide (l.stamp < v.stamp) || (l.stamp == v.stamp && decide (l.way < v.way)) then some l else m)
      none
    let way := match free, victim with
      | some w, _ => w
      | none, some v => v.way
      | none, none => 0
    let s := match free, victim with
      | none, some v => writeBack v { s with mem := { s.mem with cache := s.mem.cache.filter (fun x => x != v) } }
      | _, _ => s
    let line : CacheLine :=
      { set, way, tag, stamp := nextStamp s, dirty := []
        granules := (List.range 32).map (fun i => t1Gran s (tag * 2 ^ 30 + set * 2 ^ 11 + i * 64)) }
    bump 8 1 0 1 { s with mem := { s.mem with cache := line :: s.mem.cache } }

/-- Every dirty granule written back in ascending set and way order, every line invalid (R306). -/
def flushCache (s : State) : State :=
  if s.mem.cache.isEmpty then s
  else
    let ls := s.mem.cache.mergeSort (fun x y => decide (x.set * 16 + x.way ≤ y.set * 16 + y.way))
    let s := ls.foldl (fun s l => writeBack l s) s
    bump 8 3 0 1 { s with mem := { s.mem with cache := [] } }

/-! ### Granule reads and writes of the module's agents -/

def addressErr (a : Nat) (write : Bool) (s : State) : State :=
  recordErr { blankErr 1 with addr := a, detail := bitNat write } s

/-- A granule of T1 as a read finds it: a local write that waits for a recall of its granule is seen (R339, R398). -/
def pendingGran (s : State) (a : Nat) : Granule :=
  match s.fab.directory.find? (fun d => d.addr == a / 64 * 64) with
  | some d => d.writes.getLast?.getD (t1Gran s a)
  | none => t1Gran s a

/-- A granule read (R16, R305, R344, R345). -/
def loadGran (a : Nat) (s : State) : Granule × State :=
  match placeOf a with
  | .hole => (poisonGran, addressErr a false s)
  | .core => (rawGran s.mem a, s)
  | .store => if cacheMode s then (poisonGran, addressErr a false s) else (rawGran s.mem a, s)
  | .t1 =>
    if cacheMode s then
      let s := touchLine a s
      match lineAt s (bitsOf a 29 11) (bitsOf a 40 30) with
      | some l => (l.granules.getD (a / 64 % 32) zeroGran, s)
      | none => (poisonGran, s)
    else (pendingGran s a, bump 10 0 (channelOf s a / 64) 1 s)

/-- A whole granule written (R16, R305, R345, R414). -/
def storeGran (a : Nat) (g : Granule) (s : State) : State :=
  match placeOf a with
  | .hole => addressErr a true s
  | .core => { s with mem := rawPut s.mem a g }
  | .store => if cacheMode s then addressErr a true s else { s with mem := rawPut s.mem a g }
  | .t1 =>
    if cacheMode s then
      let s := touchLine a s
      let i := a / 64 % 32
      { s with mem := { s.mem with cache := s.mem.cache.map (fun l =>
          if l.set == bitsOf a 29 11 && l.tag == bitsOf a 40 30 then
            { l with granules := l.granules.set i g, dirty := if l.dirty.contains i then l.dirty else i :: l.dirty }
          else l) } }
    else t1Put a g s

/-- `n` granules from an address. -/
def loadGrans : (n a : Nat) → State → List Granule × State
  | 0, _, s => ([], s)
  | n + 1, a, s =>
    let (g, s) := loadGran a s
    let (r, s) := loadGrans n (a + 64) s
    (g :: r, s)

/-- Bytes of a structure, the granules that hold them read: the bytes, and whether a granule was poisoned. -/
def loadBytes (a n : Nat) (s : State) : List Byte × Bool × State :=
  let first := a / 64
  let (gs, s) := loadGrans ((a + n + 63) / 64 - first) (first * 64) s
  (((gs.flatMap (·.payload)).drop (a % 64)).take n, gs.any isPoison, s)

/-- Granules from payload bytes, tags zero, the last padded with zeros. -/
def toGrans : (n : Nat) → List Byte → List Granule
  | 0, _ => []
  | n + 1, bs => { payload := slice bs 0 64, tags := List.replicate 8 0 } :: toGrans n (bs.drop 64)

/-- Granules of a host buffer: 72 bytes each, payload first (R132, R171). -/
def fromHost72 (bs : List Byte) : Granule := { payload := slice bs 0 64, tags := slice bs 64 8 }

/-! ### Devices (R27) -/

/-- The device number (R369): HALL_RACK × 128 + TRAY × 4 + SLOT. -/
def devOf (s : State) : Nat := (s.boot.straps.hallRack * 128 + s.boot.straps.tray * 4 + s.boot.straps.slot) % 16384

/-! ### Commands and completions (R80, R81, R125) -/

def cmdNo (s : State) (order : Nat) : Option FleosCmd := s.cmds.find? (fun c => c.order == order)

def cmdOf (s : State) (src : CmdSrc) : Option FleosCmd := s.cmds.find? (fun c => c.src == src)

def updCmd (order : Nat) (g : FleosCmd → FleosCmd) (s : State) : State :=
  { s with cmds := s.cmds.map (fun c => if c.order = order then g c else c) }

/-- A completion record (Table 3-8). -/
def completionBytes (index tag status phase opcode detail result time : Nat) : List Byte :=
  natLe 4 index ++ natLe 4 tag ++ natLe 1 status ++ natLe 1 phase ++ natLe 1 opcode ++ natLe 1 0 ++ natLe 4 detail
  ++ natLe 8 result ++ natLe 8 time

/-- OPCODE of a command. -/
def FleosCmd.opcode (c : FleosCmd) : Nat := fieldAt c.desc 0 1

/-- The context a command names: byte 16, bits [3:0] (R121). -/
def FleosCmd.ctx (c : FleosCmd) : Nat := fieldAt c.desc 16 1 % 16

/-- A management response carries the record at once, unless its port is disabled (R516); a command of a ring waits for its
turn (R81, R124). -/
def finish (order status detail result : Nat) (s : State) : State :=
  match cmdNo s order with
  | none => s
  | some c =>
    match c.phase with
    | .done _ _ _ => s
    | _ =>
      match c.src with
      | .ring _ _ _ => updCmd order (fun x => { x with phase := .done status detail result, time := stampOf s }) s
      | .mgt p =>
        let s := { s with cmds := s.cmds.filter (fun x => x.order ≠ order),
                          mgt := { s.mgt with ports := s.mgt.ports.modify p (fun m => { m with outstanding := none }) } }
        if !bitOf s.regs.mgtCtrl p then s
        else emit (.mgt p 1 0 c.mgtTag
          (completionBytes 0 (fieldAt c.desc 4 4) status 0 c.opcode detail result (stampOf s))) s

/-- Completed OK. -/
def finishOk (order result : Nat) (s : State) : State := finish order 0 0 result s

/-- NO_RESOURCE with a reason (Table 5-2). -/
def finishNoRes (order reason : Nat) (s : State) : State := finish order 4 (reason * 256) 0 s

/-- BAD_DESCRIPTOR with the offending byte and a reason (Table 5-2). -/
def finishBad (order off reason : Nat) (s : State) : State := finish order 3 (reason * 256 + off) 0 s

/-- Not completed yet. -/
def FleosCmd.isOpen (c : FleosCmd) : Bool :=
  match c.phase with
  | .done _ _ _ => false
  | _ => true

end Sys2Proof.Machine
end

