-- ==== Sys2Proof/Machine/Sha.lean ====
section
/-! DEFINITION. SHA-384, which the manual names for plan digests, difference sets and quotes (R374, R473, R505) and does
not define: the algorithm of FIPS 180-4 (PRESUMED, log entry 26). Words are numbers below 2⁶⁴, and the constants are computed
from the primes, as that standard defines them. -/
namespace Sys2Proof.Machine

/-! ### Constants -/

/-- The 80 primes below 410: the numbers that no smaller prime up to 19 divides. -/
def shaPrimes : List Nat :=
  (List.range 410).filter (fun n => decide (2 ≤ n) && [2, 3, 5, 7, 11, 13, 17, 19].all (fun d => decide (n ≤ d) || decide (n % d ≠ 0)))

/-- The first 64 bits of the fraction of the `deg`-th root of `p`: the greatest number whose power fits, bit by bit from the
top. A root is below 2⁵. -/
def rootBits (deg p : Nat) : Nat :=
  (List.range 69).foldr (fun i r => if (r + 2 ^ i) ^ deg ≤ p * 2 ^ (64 * deg) then r + 2 ^ i else r) 0 % 2 ^ 64

/-- The constants of the 80 rounds: cube roots. -/
def shaRoundKeys : List Nat := shaPrimes.map (rootBits 3)

/-- The first chaining value: square roots of the ninth to the sixteenth prime. -/
def shaStart : List Nat := ((shaPrimes.drop 8).take 8).map (rootBits 2)

/-! ### Rounds -/

/-- A word turned right by `n` bits. -/
def turn (n x : Nat) : Nat := x / 2 ^ n + x % 2 ^ n * 2 ^ (64 - n)

/-- The word that follows sixteen words of the message schedule. -/
def shaFollow (w : List Nat) : Nat :=
  let x := w.getD 1 0
  let y := w.getD 14 0
  (w.getD 0 0 + (turn 1 x ^^^ turn 8 x ^^^ x / 2 ^ 7) + w.getD 9 0 + (turn 19 y ^^^ turn 61 y ^^^ y / 2 ^ 6)) % 2 ^ 64

/-- The rounds left, over the words to come. Of the eight working variables each round makes two, and the other six are those
of earlier rounds: `a` and `e` hold the last four of each, newest first. -/
def shaRounds : (keys w a e : List Nat) → List Nat
  | [], _, a, e => a ++ e
  | k :: ks, w, a, e =>
    let e0 := e.getD 0 0
    let a0 := a.getD 0 0
    let pick := e.getD 2 0 ^^^ (e0 &&& (e.getD 1 0 ^^^ e.getD 2 0))
    let most := (a0 &&& a.getD 1 0) ||| (a.getD 2 0 &&& (a0 ||| a.getD 1 0))
    let t := e.getD 3 0 + (turn 14 e0 ^^^ turn 18 e0 ^^^ turn 41 e0) + pick + k + w.getD 0 0
    shaRounds ks (w.drop 1 ++ [shaFollow w])
      ((t + (turn 28 a0 ^^^ turn 34 a0 ^^^ turn 39 a0) + most) % 2 ^ 64 :: a.take 3) ((a.getD 3 0 + t) % 2 ^ 64 :: e.take 3)

/-! ### The digest -/

/-- A word of the message, most significant byte first. -/
def shaWord (bs : List Byte) : Nat := leNat bs.reverse

/-- One block of 128 bytes on a chaining value. -/
def shaCompress (h : List Nat) (block : List Byte) : List Nat :=
  (shaRounds shaRoundKeys ((List.range 16).map (fun i => shaWord (slice block (8 * i) 8))) (h.take 4) (h.drop 4)).zipWith
    (fun x y => (x + y) % 2 ^ 64) h

/-- The message with its end mark, zeros to a whole number of blocks, and its length in bits. -/
def shaPad (m : List Byte) : List Byte :=
  m ++ [0x80] ++ List.replicate ((239 - m.length % 128) % 128) 0 ++ (natLe 16 (8 * m.length)).reverse

/-- The 48-byte digest, in the hash's output order. -/
def sha384 (m : List Byte) : List Byte :=
  let p := shaPad m
  let h := (List.range (p.length / 128)).foldl (fun h i => shaCompress h (slice p (128 * i) 128)) shaStart
  (h.take 6).flatMap (fun x => (natLe 8 x).reverse)

end Sys2Proof.Machine
end

