-- ==== Sys2Proof/Machine/Operands.lean ====
section
/-! DEFINITION. Operand forms: the fields of list commands, launch words, register fields, transport packets and
herd-control messages. -/
namespace Sys2Proof.Machine

/-! ### List commands (Table 4-1) -/

/-- A 64-byte command of a list. -/
abbrev Cmd := List Byte

def Cmd.opcode (c : Cmd) : Nat := fieldAt c 0 1
def Cmd.flags (c : Cmd) : Nat := fieldAt c 1 1
def Cmd.engine (c : Cmd) : Nat := fieldAt c 2 1
def Cmd.ctx (c : Cmd) : Nat := fieldAt c 3 1
def Cmd.coreWord (c : Cmd) : Nat := fieldAt c 4 4
def Cmd.coreFirst (c : Cmd) : Nat := bitsOf c.coreWord 18 0
def Cmd.yoke (c : Cmd) : Nat := bitsOf c.coreWord 31 20
def Cmd.launch (c : Cmd) : Nat := fieldAt c 8 8
def Cmd.coreCount (c : Cmd) : Nat := bitsOf (fieldAt c 16 4) 18 0
def Cmd.tasks (c : Cmd) : Nat := bitsOf (fieldAt c 20 4) 23 0
def Cmd.waitEvent (c : Cmd) : Nat := fieldAt c 24 2
def Cmd.waitCount (c : Cmd) : Nat := fieldAt c 26 2
def Cmd.signalEvent (c : Cmd) : Nat := fieldAt c 28 2
def Cmd.fillGroup (c : Cmd) : Nat := fieldAt c 30 2
/-- `len` bytes of the command at `off`, bodies included. -/
def Cmd.body (c : Cmd) (off len : Nat) : Nat := fieldAt c off len
def Cmd.guardFlag (c : Cmd) : Bool := bitOf c.flags 0
def Cmd.waitFlag (c : Cmd) : Bool := bitOf c.flags 1
def Cmd.signalFlag (c : Cmd) : Bool := bitOf c.flags 2
def Cmd.genFlag (c : Cmd) : Bool := bitOf c.flags 3
def Cmd.fillFlag (c : Cmd) : Bool := bitOf c.flags 4
def Cmd.frameFlag (c : Cmd) : Bool := bitOf c.flags 5

/-- TASKS is the number an opcode asks for, or 0 written by a fill (Table 4-8). -/
def tasksOk (c : Cmd) (n : Nat) : Bool := decide (c.tasks = n) || (c.fillFlag && decide (c.tasks = 0))

/-- The units of a command's core set (Table 4-1): from CORE_FIRST, 0 meaning to the last. -/
def Cmd.lastUnit (c : Cmd) (e : Engine) : Nat := if c.coreCount = 0 then e.units else c.coreFirst + c.coreCount

/-! ### Launch words (R41) -/

def launchOffset (l : Nat) : Nat := bitsOf l 23 0
def launchFrame (l : Nat) : Nat := bitsOf l 55 24
def launchValid (l : Nat) : Bool := bitOf l 63

/-- The launch rule of R41: reserved bits zero, and all zero without LVALID. -/
def launchClean (l : Nat) : Bool := decide (bitsOf l 62 56 = 0) && (launchValid l || decide (l = 0))

/-- The frame a launch word names, against the current frame; none for a past one (R42). -/
def launchTarget (l current : Nat) : Option Nat :=
  let d := diff32 (launchFrame l) (current % 2 ^ 32)
  if d < 2 ^ 31 then some (current + d) else none

/-! ### Herd time in registers and messages -/

/-- The sub-ns part of a timestamp in units of 2⁻⁸ ns: timestamps have a resolution of ¼ ns (R25). -/
def subNs (s : State) : Nat := s.herd.frac / 2 ^ 30 * 64

/-- A timestamp of now, in units of 2⁻⁸ ns (R25). -/
def time256 (s : State) : Int := (s.herd.time * 256 + subNs s : Nat)

/-- The 64 bytes of a herd-control message (Table 2-2). -/
def herdBytes (m : HerdMsg) : List Byte :=
  natLe 1 m.type ++ natLe 1 m.version ++ natLe 2 m.srcDev ++ natLe 4 m.epoch ++ natLe 8 m.originTs
  ++ natLe 4 m.correction ++ natLe 4 m.seq ++ slice m.body 0 40

/-- A body field at the byte offset of Table 2-3. -/
def msgField (m : HerdMsg) (off len : Nat) : Nat := fieldAt m.body (off - 24) len

/-- ORIGIN_TS + CORRECTION in 2⁻⁸ ns. -/
def msgSent (m : HerdMsg) : Int := (m.originTs * 256 : Nat) + signedOf 32 m.correction

/-! ### Transport packets (Table 16-3) -/

/-- A packet with every field that does not apply at 0. -/
def blankPacket (op src dst : Nat) : Packet :=
  { op, pflags := 0, srcDev := src, dstDev := dst, ctx := 0, len := 0, seq := 0, epoch := 0, tag := 0, addr := 0,
    aux := 0, status := 0, operand := 0, granules := [], control := [] }

/-- Virtual channel of an OP (Table 16-4). -/
def vcOf (op : Nat) : Nat :=
  if op = 1 ∨ op = 3 ∨ op = 5 ∨ op = 7 then 1
  else if op = 9 ∨ op = 10 ∨ op = 11 then 3
  else if op = 15 then 0 else 2

def packetHeader (p : Packet) : List Byte :=
  natLe 1 p.op ++ natLe 1 p.pflags ++ natLe 2 p.srcDev ++ natLe 2 p.dstDev ++ natLe 1 p.ctx ++ natLe 1 p.len
  ++ natLe 4 p.seq ++ natLe 2 p.epoch ++ natLe 2 p.tag ++ natLe 6 p.addr ++ natLe 1 p.aux ++ natLe 1 p.status
  ++ natLe 8 p.operand

def packetBytes (p : Packet) : List Byte :=
  packetHeader p ++ p.granules.flatMap (fun g => slice g.payload 0 64 ++ slice g.tags 0 8) ++ p.control

/-- RETX, CACHE, GEN of PFLAGS. -/
def Packet.cache (p : Packet) : Bool := bitOf p.pflags 4

/-- KEY, INSTANCE, SRC_INDEX and DST_INDEX of an exchange packet. -/
def Packet.key (p : Packet) : Nat := p.operand % 2 ^ 16
def Packet.inst (p : Packet) : Nat := bitsOf p.operand 47 16
def Packet.srcIndex (p : Packet) : Nat := bitsOf p.operand 55 48
def Packet.dstIndex (p : Packet) : Nat := bitsOf p.operand 63 56
def exchangeWord (key inst src dst : Nat) : Nat := key + inst * 2 ^ 16 + src * 2 ^ 48 + dst * 2 ^ 56

/-- Well formed for the receiver (R385): a defined OP, reserved fields zero, the right body. -/
def packetClean (p : Packet) : Bool :=
  decide (1 ≤ p.op) && decide (p.op ≤ 14) && decide (p.pflags / 32 = 0) && decide (p.pflags % 4 = vcOf p.op)
  && decide (p.srcDev < 16384) && decide (p.dstDev < 16384) && decide (p.ctx < 16) && decide (p.len ≤ 8)
  && decide (p.tag < 2 ^ 15) && decide (p.addr < 2 ^ 42) && decide (p.status < 4)
  && decide (p.op = 1 ∨ p.granules.length = p.len)

/-! ### Global addresses (R378) -/

def devField (a : Nat) : Nat := bitsOf a 55 42
def localField (a : Nat) : Nat := a % 2 ^ 42

/-! ### Register fields -/

def periodReg (r : Nat) : Nat := bitsOf r 14 0
def guardReg (r : Nat) : Nat := bitsOf r 28 16
def slipMaxReg (r : Nat) : Nat := bitsOf r 38 32
/-- HRT_SYNC fields (Table 24-7): the INTERVAL that the next SYNC carries, and the others as they apply (R523). -/
def intervalReg (s : State) : Nat := bitsOf s.regs.hrtSync 2 0
def delayEvery (s : State) : Nat := bitsOf s.regs.syncNow 14 8
def missLimit (s : State) : Nat := bitsOf s.regs.syncNow 20 16
/-- HRT_CTRL fields as they apply (Table 24-8, R523). -/
def slipEn (s : State) : Bool := bitOf s.regs.ctrlNow 0
def backupNs (s : State) : Nat := bitsOf s.regs.ctrlNow 13 8 * 100
def holdMs (s : State) : Nat := bitsOf s.regs.ctrlNow 25 16
/-- A sync interval of the module begins: HRT_SYNC and HRT_CTRL apply as they are stored (R523). -/
def beginInterval (s : State) : State := { s with regs := { s.regs with syncNow := s.regs.hrtSync, ctrlNow := s.regs.hrtCtrl } }
/-- FAB_TRANSPORT fields (Table 16-12). -/
def retxMax (s : State) : Nat := bitsOf s.regs.fabTransport 11 8
def foldCacheEn (s : State) : Bool := bitOf s.regs.fabTransport 16
/-- LNK_DEGRADE fields (Table 15-11). -/
def replayMax (s : State) : Nat := bitsOf s.regs.lnkDegrade 7 0
def sameMax (s : State) : Nat := bitsOf s.regs.lnkDegrade 11 8

/-- The sync interval in force, in ns (R39, R523). -/
def syncNs (s : State) : Nat :=
  8000 * 2 ^ (if inHerd s && !s.herd.isMaster then s.herd.interval else intervalReg s)

end Sys2Proof.Machine
end

