-- ==== Sys2Proof/Machine/Coding.lean ====
section
/-! DEFINITION. The coding of a Worl link (R354, R355): the scrambler, the Reed–Solomon code RS(544,514), Gray-coded PAM4
and the striping over active lanes; a link's transmit stream and the receiver's superframe lock. -/
namespace Sys2Proof.Machine

/-! ### The scrambler 1 + x³⁹ + x⁵⁸ -/

/-- A block of 32 message bits scrambled, the earliest in bit 0. `st` holds the last 58 scrambled bits, the latest in bit
57: the bit sent 39 bits ago is bit 19 of it and the one sent 58 bits ago bit 0. 32 bits lie within both delays. -/
def scrambleWord (st w : Nat) : Nat × Nat :=
  let o := (w ^^^ st / 2 ^ 19 ^^^ st) % 2 ^ 32
  (o, (st + o * 2 ^ 58) / 2 ^ 32)

/-- Words scrambled in turn: the scrambled bits, the earliest lowest, and the scrambler's state after them. -/
def scramble : (st : Nat) → List Nat → Nat × Nat
  | st, [] => (0, st)
  | st, w :: r =>
    let (o, st) := scrambleWord st w
    let (rest, st) := scramble st r
    (o + rest * 2 ^ 32, st)

/-- The 64 words of a flit, byte 0 first. -/
def flitWords (f : List Byte) : List Nat := (List.range 64).map (fun i => fieldAt f (4 * i) 4)

/-! ### RS(544,514) over GF(2¹⁰) (the KP4 code; its field and generator: log entry 65) -/

/-- Times x in the field of x¹⁰ + x³ + 1. -/
def gfDouble (a : Nat) : Nat := if 512 ≤ a then (2 * a) ^^^ 0x409 else 2 * a

/-- Product of field elements: over the bits of `b`, the least significant first. -/
def gfMul : (bits a b : Nat) → Nat
  | 0, _, _ => 0
  | n + 1, a, b => (if b % 2 = 1 then a else 0) ^^^ gfMul n (gfDouble a) (b / 2)

/-- Every coefficient times a field element. -/
def gfScale (c : Nat) (p : List Nat) : List Nat := p.map (fun a => gfMul 10 a c)

/-- A polynomial times x + r; coefficients from x⁰ up. -/
def polyTimesRoot (r : Nat) (p : List Nat) : List Nat :=
  ((0 :: p).zip (gfScale r p ++ [0])).map (fun e => e.1 ^^^ e.2)

/-- The product of x + αʲ for `n` successive powers of α from `r` on. -/
def polyFromRoots : (n r : Nat) → List Nat → List Nat
  | 0, _, p => p
  | n + 1, r, p => polyFromRoots n (gfDouble r) (polyTimesRoot r p)

/-- The generator polynomial: roots α⁰ to α²⁹; its 30 lower coefficients. -/
def rsGenerator : List Nat := (polyFromRoots 30 1 [1]).take 30

/-- Coefficients packed 10 bits each, x⁰ lowest. -/
def packSymbols : List Nat → Nat
  | [] => 0
  | a :: r => a + 2 ^ 10 * packSymbols r

/-- The generator times 1, x, …, x⁹, packed: what each bit of a feedback symbol adds to the remainder. -/
def feedbackWords : (n : Nat) → List Nat → List Nat
  | 0, _ => []
  | n + 1, p => packSymbols p :: feedbackWords n (p.map gfDouble)

/-- The sum of the words whose bits are set in a symbol. -/
def feedbackSum : (sym : Nat) → List Nat → Nat
  | _, [] => 0
  | sym, w :: r => (if sym % 2 = 1 then w else 0) ^^^ feedbackSum (sym / 2) r

/-- One message symbol taken into the remainder of 30 symbols. -/
def rsStep (fb : List Nat) (rem sym : Nat) : Nat :=
  (rem % 2 ^ 290 * 2 ^ 10) ^^^ feedbackSum (rem / 2 ^ 290 ^^^ sym) fb

/-- The 10-bit symbols of a number, the lowest first. -/
def symbolsOf : (n v : Nat) → List Nat
  | 0, _ => []
  | n + 1, v => v % 1024 :: symbolsOf n (v / 1024)

/-- The 544 symbols of the codeword of 5,140 message bits: the message symbols, then the 30 parity symbols, the highest
power first. -/
def rsEncode (message : Nat) : List Nat :=
  let ms := symbolsOf 514 message
  ms ++ (symbolsOf 30 (ms.foldl (rsStep (feedbackWords 10 rsGenerator)) 0)).reverse

/-! ### Lanes -/

/-- Active lanes of a mask, ascending. -/
def lanesOf (m : Nat) : List Nat := (List.range 4).filter (bitOf m)

/-- The Gray-coded PAM4 levels of a symbol, its earlier bit the more significant of each pair (log entry 65). -/
def pam4 (sym : Nat) : List Nat :=
  (List.range 5).map (fun i => match sym / 4 ^ i % 4 with | 0 => 0 | 1 => 3 | 2 => 1 | _ => 2)

/-- The symbols of a codeword as they travel: symbol `j` of the stream on the (j mod n)-th of the n active lanes. -/
def stripe (lanes : List Nat) (j : Nat) (syms : List Nat) : List (Nat × List Nat) :=
  lanes.zipIdx.map (fun l => (l.1, (syms.zipIdx.filter (fun s => (j + s.2) % lanes.length == l.2)).flatMap (fun s => pam4 s.1)))

/-! ### The transmit stream of a link (R355) -/

/-- Flits of a superframe. -/
def superframe : Nat := 1285

/-- One flit into the stream: the stream after it, and the levels of the codeword that it completes, by lane, if it
completes one. -/
def TxStream.push (lanes : List Nat) (f : List Byte) (t : TxStream) : TxStream × Option (List (Nat × List Nat)) :=
  let (o, st) := scramble t.scram (flitWords f)
  let bits := t.bits + o * 2 ^ t.count
  let n := t.count + 2048
  let t := { t with pos := (t.pos + 1) % superframe, scram := st }
  if n < 5140 then ({ t with bits, count := n }, none)
  else
    ({ t with bits := bits / 2 ^ 5140, count := n - 5140, symbol := t.symbol + 544 },
      some (stripe lanes t.symbol (rsEncode (bits % 2 ^ 5140))))

/-- The receiver's place in a superframe after one more flit: SF says where one begins (R355). -/
def rxAfter (sf : Bool) (p : Option Nat) : Option Nat := if sf then some 1 else p.map (fun n => (n + 1) % superframe)

end Sys2Proof.Machine
end

