-- ==== Sys2Proof/Machine/Transport.lean ====
section
/-! DEFINITION. Links and transport, sending side: fold geometry, routes, flits, replay, packets, requests and herd-control
messages (files 15 and 16). -/
namespace Sys2Proof.Machine

/-! ### Division of the links (R365, R366, R387) -/

/-- Fold links of a LINKSPLIT code (Table 15-5). -/
def foldCount (code : Nat) : Nat :=
  match code with
  | 1 => 12 | 2 => 24 | 3 => 48 | 4 => 16 | 5 => 32 | _ => 0

/-- Fold index of link `n`, where it is a fold link. -/
def foldIndex (s : State) (n : Nat) : Option Nat :=
  let i := 8 * (n % 8) + n / 8
  if i < foldCount s.boot.straps.linksplit then some i else none

/-- The neighbour slots in the order of R366. -/
def neighbourSlots (s : State) : List Nat :=
  let me := s.boot.straps.slot
  if s.boot.straps.linksplit = 4 ∨ s.boot.straps.linksplit = 5 then [me ^^^ 1]
  else (List.range 4).filter (fun x => decide (x ≠ me))

/-- Slot and connection of a fold index. -/
def foldPeer (s : State) (i : Nat) : Nat × Nat :=
  let n := (neighbourSlots s).length
  ((neighbourSlots s).getD (i % n) 0, i / n)

/-- The device number of a slot of this tray. -/
def slotDev (s : State) (slot : Nat) : Nat := devOf s / 4 * 4 + slot

def linkActive (s : State) (n : Nat) : Bool := (linkOf s n).state == 2

/-- ACTIVE fold links to a device, in ascending connection order. -/
def foldLinksTo (s : State) (dev : Nat) : List Nat :=
  ((List.range (foldCount s.boot.straps.linksplit)).filter (fun i => decide (slotDev s (foldPeer s i).1 = dev))).map
    (fun i => 8 * (i % 8) + i / 8) |>.filter (linkActive s)

/-- ACTIVE switch links in ascending order. -/
def switchLinks (s : State) : List Nat :=
  (List.range 64).filter (fun n => (foldIndex s n).isNone && linkActive s n)

/-- Primary and alternate egress links towards a device for an address (R387). -/
def routesTo (s : State) (dev addr : Nat) : Option Nat × Option Nat :=
  let r := addr / 2048
  let sw := switchLinks s
  let n := sw.length
  let first := if n = 0 then none else sw[(r + dev) % n]?
  let second := if n = 0 then none else sw[(r + dev + 1) % n]?
  let fl := foldLinksTo s dev
  if fl.isEmpty then (first, if n ≤ 1 then none else second) else (fl[r % fl.length]?, first)

/-- The device is reached by no ACTIVE link. -/
def noRoute (s : State) (dev addr : Nat) : Bool := (routesTo s dev addr).1.isNone && (routesTo s dev addr).2.isNone

/-! ### Flits (R356 to R360) -/

def lcount (l index n : Nat) (s : State) : State := bump 11 index l n s

/-- ORIGIN_TS and CORRECTION of a herd-control message, which channel 0 alone carries, rewritten to now (R360). -/
def refreshPayload (s : State) (vc : Nat) (p : List Byte) : List Byte :=
  if vc = 0 then splice (splice p 40 (natLe 8 s.herd.time)) 48 (natLe 4 (subNs s)) else p

/-- One bit of CRC-32C, in the reflected form of that code (log entry 20). -/
def crcBit (c : Nat) : Nat := if c % 2 = 1 then c / 2 ^^^ 0x82F63B78 else c / 2

def crcByte (c : Nat) (b : Byte) : Nat :=
  let x := c ^^^ b.toNat
  crcBit (crcBit (crcBit (crcBit (crcBit (crcBit (crcBit (crcBit x)))))))

def crc32c (bs : List Byte) : Nat := bs.foldl crcByte 0xFFFFFFFF ^^^ 0xFFFFFFFF

/-- The 256 bytes of a flit of a link (Table 15-1): SF at the first of a superframe, ACK and CREDIT as they stand. -/
def flitBytes (k : Link) (type seq : Nat) (payload : List Byte) : List Byte :=
  let ack := (k.rxNext + 4095) % 4096 + bitNat k.ackValid * 2 ^ 15
  let f := natLe 1 (type + if k.tx.pos = 0 then 8 else 0) ++ natLe 2 seq ++ natLe 2 ack ++ natLe 1 0
    ++ (List.range 4).flatMap (fun v => natLe 1 (min 255 (k.owed.getD v 0))) ++ natLe 2 0 ++ slice payload 0 240
  f ++ natLe 4 (crc32c f)

/-- A flit leaves: it carries the credits owed, enters the link's stream, and the codeword that it completes goes out on the
active lanes (R354 to R356). -/
def putFlit (l type seq : Nat) (payload : List Byte) (s : State) : State :=
  let k := linkOf s l
  let f := flitBytes k type seq payload
  let (tx, done) := k.tx.push (lanesOf k.lanes) f
  let s := updLink l (fun k => { k with tx, owed := k.owed.map (fun n => n - min 255 n) }) s
  let s := lcount l 1 1 (emit (.flit l f) s)
  match done with
  | some lv => emit (.codeword l lv) s
  | none => s

/-- In MIXED, generation work goes first at the arbiters (R20, Table 4-6). -/
def ranksGen (s : State) : Bool := s.boot.straps.role == 3

/-- Slots of a payload. -/
def slotsOf (p : List Byte) : Nat := (p.length + 15) / 16

/-- Packet `i` is the next of its channel: one that has started is completed first; in MIXED generation-class packets come
before others; the rest in arrival order (R358). -/
def nextOfChannel (ranked : Bool) (ws : List WaitPkt) (i : Nat) (w : WaitPkt) : Bool :=
  let peers := ws.zipIdx.filter (fun x => x.1.vc == w.vc && x.2 != i)
  w.started || peers.all (fun x => !x.1.started
    && (if ranked && x.1.gen != w.gen then w.gen else decide (i < x.2)))

/-- The packet whose next slots the egress arbiter sends: channel 0, then in MIXED the generation class, then arrival
order, of those that credits and the replay buffer permit (R358, R359). -/
def nextWaiting (ranked : Bool) (k : Link) : Option Nat :=
  if k.state ≠ 2 ∨ k.degrading.isSome ∨ 512 ≤ k.replay.length then none
  else
    let able := k.waiting.zipIdx.filter (fun x => nextOfChannel ranked k.waiting x.2 x.1
      && decide (slotsOf (x.1.pieces.headD []) ≤ k.credits.getD x.1.vc 0))
    let rank (w : WaitPkt) : Nat := if w.vc = 0 then 0 else if ranked && w.gen then 1 else 2
    (able.foldl (fun (b : Option (Nat × Nat)) x => match b with
      | some (r, _) => if rank x.1 < r then some (rank x.1, x.2) else b
      | none => some (rank x.1, x.2)) none).map (·.2)

/-- The next payload of waiting packet `i` leaves as a DATA flit and is kept until it is acknowledged (R359). -/
def sendPiece (l i : Nat) (s : State) : State :=
  let k := linkOf s l
  match k.waiting[i]? with
  | none => s
  | some w =>
    let p := w.pieces.headD []
    let rest := w.pieces.drop 1
    let s := updLink l (fun k => { k with
      txSeq := (k.txSeq + 1) % 4096, replay := k.replay ++ [{ seq := k.txSeq, vc := w.vc, again := w.again, payload := p }]
      credits := k.credits.modify w.vc (· - slotsOf p)
      waiting := if rest.isEmpty then k.waiting.eraseIdx i else k.waiting.set i { w with started := true, pieces := rest } }) s
    putFlit l 1 k.txSeq p s

/-- At most `n` payloads of what waits leave. -/
def drainSome : (n l : Nat) → State → State
  | 0, _, s => s
  | n + 1, l, s =>
    match nextWaiting (ranksGen s) (linkOf s l) with
    | some i => drainSome n l (sendPiece l i s)
    | none => s

/-- What waits leaves as far as it may. -/
def drainWaiting (l : Nat) (s : State) : State :=
  drainSome ((linkOf s l).waiting.foldl (fun n w => n + w.pieces.length) 0) l s

/-- Payloads of at most 15 slots. -/
def flitPieces : (n : Nat) → List Byte → List (List Byte)
  | 0, _ => []
  | n + 1, bs => if bs.isEmpty then [] else bs.take 240 :: flitPieces n (bs.drop 240)

/-- The bytes of a packet handed to a link (R358). -/
def sendBytes (l vc : Nat) (gen again : Bool) (bs : List Byte) (s : State) : State :=
  let ps := flitPieces (bs.length / 240 + 1) bs
  if ps.isEmpty then s
  else drainWaiting l (updLink l (fun k => { k with
    waiting := k.waiting ++ [{ vc, gen, again, started := false, pieces := ps }] }) s)

/-- Every flit not acknowledged is sent again in SEQ order (R359, R360). -/
def replayAll (l : Nat) (s : State) : State :=
  let s := updLink l (fun k => { k with replay := k.replay.map (fun e => { e with payload := refreshPayload s e.vc e.payload }) }) s
  (linkOf s l).replay.foldl (fun s e => lcount l 11 1 (putFlit l 1 e.seq e.payload s)) s

/-! ### Transport counters (R405) -/

def tcount (index dev n : Nat) (s : State) : State := bump 12 index dev n (bump 12 index 0xFFFFFFFF n s)

/-- A count of a packet of a context: for a device, in total, and for the context (R405). The counts of a context are kept
under a group code of their own (log entry 33). -/
def pcount (index dev n : Nat) (p : Packet) (s : State) : State :=
  tcount index dev n (if p.op ≤ 12 then bump 14 index p.ctx n s else s)

/-! ### Packets and requests (R386 to R388, R391, R401) -/

/-- A packet on a link. -/
def sendPacket (l : Nat) (p : Packet) (s : State) : State :=
  let s := emit (.packet l p) s
  let s := pcount (p.op - 1) p.dstDev 1 p (pcount (14 + p.op) p.dstDev p.granules.length p s)
  sendBytes l (vcOf p.op) (bitOf p.pflags 2) false (packetBytes p) s

/-- A packet on its primary route, or the alternate where no primary exists; the link it left on. -/
def sendRouted (p : Packet) (alternate : Bool) (s : State) : Option Nat × State :=
  let r := routesTo s p.dstDev p.addr
  let l := if alternate then r.2.orElse (fun _ => r.1) else r.1.orElse (fun _ => r.2)
  match l with
  | some l => (some l, sendPacket l p s)
  | none => (none, s)

/-- A response, on the target's route to the source, keyed by the request's ADDR. -/
def sendResponse (p : Packet) (s : State) : State := (sendRouted p false s).2

/-- A write, counted by fence epochs (R391). -/
def isWriteOp (op : Nat) : Bool := op == 3 || op == 5 || op == 7 || op == 10 || op == 11

def epochAdd (k : Nat × Nat) : List ((Nat × Nat) × Nat) → List ((Nat × Nat) × Nat)
  | [] => [(k, 1)]
  | (j, n) :: r => if j = k then (j, n + 1) :: r else (j, n) :: epochAdd k r

def epochSub (k : Nat × Nat) (m : List ((Nat × Nat) × Nat)) : List ((Nat × Nat) × Nat) :=
  (m.map (fun e => if e.1 = k then (e.1, e.2 - 1) else e)).filter (fun e => decide (e.2 ≠ 0))

/-- Fleos traffic and its reserve of 1,024 requests (Table 22-3). -/
def isFleosOwner : Owner → Bool
  | .cmd _ => true
  | .fleos => true
  | _ => false

/-- The fabric die of the link that a packet's first attempt takes (R401). -/
def dieOf (s : State) (p : Packet) : Option Nat :=
  let r := routesTo s p.dstDev p.addr
  (r.1.orElse (fun _ => r.2)).map (· / 8)

/-- Two requests of the target's memory touch a granule in common. -/
def sameGranule (p r : Packet) : Bool :=
  let memory (x : Packet) : Bool := x.op == 1 || x.op == 3 || x.op == 5 || x.op == 10
  memory p && memory r && p.dstDev == r.dstDev
  && decide (p.addr / 64 < r.addr / 64 + max 1 r.len ∧ r.addr / 64 < p.addr / 64 + max 1 p.len)

/-- A request may be issued under the limits of R386 and R401; one that touches a granule of an unanswered request of its
command waits for that answer (R390). -/
def mayIssue (s : State) (o : Owner) (p : Packet) : Bool :=
  let rs := s.fab.requests
  rs.all (fun r => !(r.owner == o && sameGranule p r.pkt)) &&
  decide ((rs.filter (fun r => r.pkt.dstDev == p.dstDev)).length < 4096)
  && decide ((rs.filter (fun r => r.owner == o)).length < (match o with | .queue .fe _ => 512 | _ => 32768))
  && decide (rs.length < if isFleosOwner o then 32768 else 31744)
  && ((dieOf s p).isNone || decide ((rs.filter (fun r => r.die == dieOf s p)).length < 4096))

/-- A device found unreachable for exchanges (R487). -/
def markUnreachable (dev : Nat) (s : State) : State :=
  if s.fab.unreachable.contains dev then s
  else { s with fab := { s.fab with unreachable := dev :: s.fab.unreachable } }

/-- The first attempt of a request: SEQ, TAG and EPOCH given, the packet sent, the request kept until its response. -/
def launchRequest (r : Request) (s : State) : State :=
  let dev := r.pkt.dstDev
  let ep := match ctxAt s r.pkt.ctx with | some c => c.fenceEpoch | none => 0
  let p := { r.pkt with
    seq := tabNat s.fab.seqOut dev, tag := s.fab.nextTag, epoch := if isWriteOp r.pkt.op then ep else 0 }
  let s := { s with fab := { s.fab with
    seqOut := tabSet s.fab.seqOut dev ((tabNat s.fab.seqOut dev + 1) % 2 ^ 32)
    nextTag := (s.fab.nextTag + 1) % 2 ^ 15 } }
  let s := if isWriteOp p.op then updCtx p.ctx (fun c => { c with epochs := epochAdd (p.epoch, dev) c.epochs }) s else s
  let die := dieOf s p
  let (l, s) := sendRouted p false s
  let s := if l.isNone then markUnreachable dev s else s
  { s with fab := { s.fab with
    requests := s.fab.requests ++ [{ r with pkt := p, attempts := 1, alternate := false, link := l, die }] } }

/-- A request issued, or held back by a limit (R401). -/
def issue (o : Owner) (use : ReqUse) (p : Packet) (s : State) : State :=
  let r : Request := { pkt := p, use, owner := o, attempts := 0, alternate := false, busy := false, link := none, die := none }
  if mayIssue s o p && s.fab.held.all (fun h => h.owner != o) then launchRequest r s
  else { s with fab := { s.fab with held := s.fab.held ++ [r] } }

/-- Held requests that the limits now permit, in order; in MIXED the generation class first (R20, R111). -/
def drainHeld (s : State) : State :=
  let h := s.fab.held
  let gen (r : Request) : Bool := ranksGen s && bitOf r.pkt.pflags 2
  (h.filter gen ++ h.filter (fun r => !gen r)).foldl (fun s r => issue r.owner r.use r.pkt s)
    { s with fab := { s.fab with held := [] } }

/-- Requests of an owner without an answer. -/
def outstandingOf (s : State) (o : Owner) : Bool :=
  s.fab.requests.any (fun r => r.owner == o) || s.fab.held.any (fun r => r.owner == o)

/-! ### Herd-control messages (R29, R548) -/

/-- A message handed to the transport for a device. -/
def handHerd (dst : Nat) (m : HerdMsg) (s : State) : State :=
  let s := emit (.herd dst m) s
  let r := routesTo s dst 0
  match r.1.orElse (fun _ => r.2) with
  | some l =>
    let h := { blankPacket 15 (devOf s) dst with pflags := 0 }
    sendBytes l 0 false false (packetHeader h ++ herdBytes m) s
  | none => s

/-- A herd-control message of this module: the header of Table 2-2 with the next SEQ of its TYPE. -/
def sendHerd (dst type : Nat) (body : List Byte) (s : State) : State :=
  let m : HerdMsg :=
    { type, version := 1, srcDev := devOf s, epoch := s.herd.epoch, originTs := s.herd.time
      correction := subNs s, seq := tabNat s.herd.seqOut type, body := slice body 0 40 }
  handHerd dst m { s with herd := { s.herd with
    seqOut := tabSet s.herd.seqOut type ((tabNat s.herd.seqOut type + 1) % 2 ^ 32) } }

/-- The same message to several devices: one SEQ. -/
def broadcastHerd (dsts : List Nat) (type : Nat) (body : List Byte) (s : State) : State :=
  let m : HerdMsg :=
    { type, version := 1, srcDev := devOf s, epoch := s.herd.epoch, originTs := s.herd.time
      correction := subNs s, seq := tabNat s.herd.seqOut type, body := slice body 0 40 }
  dsts.foldl (fun s d => handHerd d m s) { s with herd := { s.herd with
    seqOut := tabSet s.herd.seqOut type ((tabNat s.herd.seqOut type + 1) % 2 ^ 32) } }

/-! ### Coherent writes (R398, R399) -/

/-- The region of a context that holds a whole extent, in effect now (R131). -/
def regionOf (s : State) (ctx addr len : Nat) : Option Region :=
  (ctxAt s ctx).bind (fun c => (c.regions.find? (fun r =>
    r.2.live && decide (r.2.addr ≤ addr) && decide (addr + len ≤ r.2.addr + r.2.size))).map (·.2))

/-- A granule of a coherent region of some context. -/
def isCoherent (s : State) (a : Nat) : Bool :=
  s.contexts.any (fun c => c.2.regions.any (fun r =>
    r.2.kind == 3 && r.2.live && decide (r.2.addr ≤ a) && decide (a < r.2.addr + r.2.size)))

def dirAt (s : State) (a : Nat) : Option DirEntry := s.fab.directory.find? (fun d => d.addr == a / 64 * 64)

def updDir (a : Nat) (g : DirEntry → DirEntry) (s : State) : State :=
  { s with fab := { s.fab with directory := s.fab.directory.map (fun d => if d.addr = a / 64 * 64 then g d else d) } }

/-- Granules in RECALL on a base die. -/
def recallsOn (s : State) (stack : Nat) : Nat :=
  (s.fab.directory.filter (fun d => d.recalling && (stackPlace s d.addr).1 == stack)).length

/-- Invalidations to each sharer of an entry; the entry enters RECALL. -/
def startRecall (a : Nat) (s : State) : State :=
  match dirAt s a with
  | some d =>
    if d.recalling then s
    else
      let s := bump 12 43 0xFFFFFFFF 1 (updDir a (fun d => { d with recalling := true, queued := false }) s)
      d.sharers.foldl (fun s slot => issue .fleos .write
        { blankPacket 13 (devOf s) (slotDev s slot) with pflags := 2, addr := a / 64 * 64 } s) s
  | none => s

/-- A recall that the module itself wants: with 256 granules in RECALL on the base die it waits (R399). -/
def wantRecall (a : Nat) (s : State) : State :=
  match dirAt s a with
  | some d =>
    if d.recalling then s
    else if recallsOn s (stackPlace s a).1 < 256 then startRecall a s
    else updDir a (fun d => { d with queued := true }) s
  | none => s

/-- A whole granule written by an agent of the module: a write to a SHARED granule waits for its recall (R398). -/
def putGran (a : Nat) (g : Granule) (s : State) : State :=
  match dirAt s a with
  | some _ => wantRecall a (updDir a (fun d => { d with writes := d.writes ++ [g] }) s)
  | none => storeGran a g s

def putGrans (a : Nat) : List Granule → State → State
  | [], s => s
  | g :: r, s => putGrans (a + 64) r (putGran a g s)

/-- Bytes put into granules of zero tags: whole granules are written, and a granule covered in part keeps its other
bytes, unless it is poisoned (R414). -/
def putBytes (a : Nat) (bs : List Byte) (s : State) : State :=
  let first := a / 64
  (List.range ((a + bs.length + 63) / 64 - first)).foldl (fun s i =>
    let g := (first + i) * 64
    let lo := max a g
    let hi := min (a + bs.length) (g + 64)
    let part := slice bs (lo - a) (hi - lo)
    if hi - lo = 64 then putGran g { payload := part, tags := List.replicate 8 0 } s
    else
      let (old, s) := loadGran g s
      if isPoison old then s
      else putGran g { payload := splice old.payload (lo - g) part, tags := List.replicate 8 0 } s) s

/-- Poisoned granules written. -/
def putPoison (a n : Nat) (s : State) : State := putGrans a (List.replicate n poisonGran) s

end Sys2Proof.Machine
end

