-- ==== Sys2Proof/Machine/Queues.lean ====
section
/-! DEFINITION. Shared operations of queues and slips: ticks and guard windows, slip requests and records, engine faults,
abandoned frames (files 02 and 04). -/
namespace Sys2Proof.Machine

def updHerd (g : Herd → Herd) (s : State) : State := { s with herd := g s.herd }

/-- The counter has counted to a herd time, where it is still behind it: an event at that herd time (log entry 5). -/
def advanceTo (t : Nat) (s : State) : State :=
  if s.herd.time < t then updHerd (fun h => { h with time := t, frac := 0 }) s else s

/-! ### Ticks (R38, R45, R47) -/

/-- Herd time of tick `k` with slip count `s`. -/
def tickTimeAt (h : Herd) (k s : Nat) : Nat := h.t0 + (k + s - h.k0) * h.period

def tickTime (h : Herd) (k : Nat) : Nat := tickTimeAt h k h.s

/-- Herd time of tick `k`: of the frame running, when that tick occurred, which a later slip does not move (R38, R53); of an
earlier frame, no later than a period before for each; of a coming one, by the schedule. -/
def tickOf (h : Herd) (k : Nat) : Nat :=
  if h.inFrame && decide (k ≤ h.frame) then h.tickAt - (h.frame - k) * h.period else tickTime h k

/-- The next tick: the one after the frame running, the same again after a divergence, and with no frame of READY the
first after now (R38, R42, R54). -/
def nextTick (s : State) : Nat :=
  let h := s.herd
  if h.inFrame then (if h.diverged then h.frame else h.frame + 1)
  else h.k0 + (h.time - h.t0) / max 1 h.period + 1 - h.s

/-- U of R47, in ns: path delay to the master + 0.5 µs, rounded up to 0.1 µs; 0 on the master. Path delays are kept in whole
ns, rounded up. -/
def guardU (h : Herd) : Nat :=
  if h.isMaster then 0 else (tabNat h.pathDelay h.masterDev + 500 + 99) / 100 * 100

/-- The effective guard of a tick: a new value applies from its first tick (R46). -/
def guardFor (h : Herd) (k : Nat) : Nat :=
  match h.guardNext with
  | some (g, k0) => if k0 ≤ k then g else h.guard
  | none => h.guard

/-! ### Queues (R98 to R104) -/

/-- The head command of a queue: the one that runs stands as it was fetched, whatever is filled later (R117). -/
def headOf (x : Queue) : Option Cmd :=
  if x.state = 3 then x.cur.orElse (fun _ => x.list[x.head]?) else x.list[x.head]?

/-- The units that tasks of a queue of SE, TE or FE hold are free again. -/
def freeUnits (e : Engine) (q : Nat) (s : State) : State :=
  { s with eng := { s.eng with held := s.eng.held.filter (fun h => !(h.1 == e && h.2.2 == q)) } }

/-- The queue runs a command of an opcode whose tasks have all been issued and whose work is still to be done. -/
def workHead (s : State) (e : Engine) (q opcode : Nat) : Option (Queue × Cmd) :=
  match queueAt s e q with
  | some x =>
    match headOf x with
    | some c =>
      if x.state = 3 ∧ x.worked = false ∧ c.opcode = opcode ∧ c.tasks ≠ 0 ∧ x.issued = c.tasks then some (x, c) else none
    | none => none
  | none => none

/-- The work of the running command has been done or issued. -/
def markWorked (e : Engine) (q : Nat) (s : State) : State := updQueue e q (fun x => { x with worked := true }) s

/-- One event more on a counter (R109). -/
def signalEvent (n : Nat) (s : State) : State :=
  { s with eng := { s.eng with events := tabPut s.eng.events n ((tabNat s.eng.events n + 1) % 2 ^ 32) } }

/-- The condition of WAIT: a signed 16-bit difference not negative (R109). -/
def eventReached (s : State) (n count : Nat) : Bool :=
  decide ((tabNat s.eng.events n % 65536 + 65536 - count % 65536) % 65536 < 32768)

/-- The open PROGRAM_STARTs of a program complete; RESULT is the frames run (Table 5-3). -/
def finishStarts (ctx prog status detail : Nat) (s : State) : State :=
  match progAt s ctx prog with
  | none => s
  | some p =>
    p.startCmds.foldl (fun s o => finish o status detail (((cmdNo s o).map (·.progress)).getD 0) s)
      (updProg ctx prog (fun p => { p with startCmds := [] }) s)

/-- An engine fault at the head command: FAULTED, its record, and the host command that started the queue completed with
the defect's status (R104, Table 4-5). DETAIL of the completion: log entry 21. -/
def faultQueue (e : Engine) (q row : Nat) (s : State) : State :=
  match queueAt s e q with
  | none => s
  | some x =>
    let s := setQueue e q { x with state := 5, stopReq := none } s
    let s := { s with eng := { s.eng with tasks := s.eng.tasks.filter (fun t => !(t.engine == e && t.queue == q)) } }
    let s := freeUnits e q s
    let s := recordErr { blankErr 3 with ctx := x.ctx, engine := e.code, queue := q, listIndex := x.head, detail := row } s
    if row = 8 then finishStarts x.ctx x.program 4 0x900 s
    else finishStarts x.ctx x.program 3 (x.head % 65536 * 65536 + 0x600) s

/-- A command of which a task met a defect ends once no task of it runs: its queue faults with the record of the defect, and
the host command completes BAD_DESCRIPTOR (R168). -/
def settleDefect (e : Engine) (q : Nat) (s : State) : State :=
  match queueAt s e q with
  | none => s
  | some x =>
    match x.defect with
    | none => s
    | some r =>
      if s.eng.tasks.any (fun t => t.engine == e && t.queue == q) then s
      else
        let s := setQueue e q { x with state := 5, stopReq := none, defect := none, reissue := [] } s
        finishStarts x.ctx x.program 3 (x.head % 65536 * 65536 + 0x600) (recordErr r s)

/-- A task ends, for whatever reason, and is gone from its unit. -/
def dropTask (e : Engine) (u : Nat) (s : State) : State :=
  { s with eng := { s.eng with tasks := s.eng.tasks.filter (fun t => !(t.engine == e && t.unit == u)) } }

/-- A tile defect of a task (R168, R192, R200): the task stops, and no further one of its command is issued. -/
def faultTask (t : Task) (r : ErrRec) (s : State) : State :=
  match queueAt s t.engine t.queue with
  | none => s
  | some x =>
    let r := { r with ctx := x.ctx, engine := t.engine.code, queue := t.queue, listIndex := x.head, task := t.index }
    settleDefect t.engine t.queue (dropTask t.engine t.unit
      (updQueue t.engine t.queue (fun x => { x with defect := x.defect.orElse (fun _ => some r) }) s))

/-! ### Programs and frames (R54, R55, R59, R113) -/

/-- Queues of a program, as they stand. -/
def progQueues (s : State) (p : Program) : List Queue := p.queues.filterMap (fun k => queueAt s k.1 k.2)

/-- A frame program's queue with work of its frame still to do. -/
def unfinished (x : Queue) : Bool := (x.state == 2 && !x.awaitTick) || x.state == 3

/-- The program to which a queue is bound is a frame program. -/
def isFrameQueue (s : State) (x : Queue) : Bool := ((progAt s x.ctx x.program).map (·.isFrame)).getD false

/-- Contexts with a frame queue whose work of its frame is unfinished. -/
def unfinishedCtxs (s : State) : List Nat :=
  (s.eng.queues.filter (fun e => isFrameQueue s e.2 && unfinished e.2)).map (fun e => e.2.ctx)

/-- Abandons what is left of the frame on every frame queue: a running command completes late, the rest does not start.
`wait` says whether the queue then waits for a tick (R35, R54, R55, R59). -/
def abandonFrames (wait : Bool) (s : State) : State :=
  { s with eng := { s.eng with queues := s.eng.queues.map (fun (e : Nat × Queue) =>
    if isFrameQueue s e.2 && unfinished e.2 then
      (e.1, if e.2.state = 3 then { e.2 with late := true, awaitTick := wait }
            else { e.2 with head := 0, awaitTick := wait })
    else e) } }

/-- A frame carries work of a prompt command whose prefill is not complete (R113, R140). -/
def carriedBy (frame : Nat) (c : FleosCmd) : Bool := c.carried == some frame && decide (c.progress < fieldAt c.desc 32 4)

/-- Running prompt commands of a kind are owed SLIPPED_OUT with the frame. -/
def owePrompts (which : FleosCmd → Bool) (frame : Nat) (s : State) : State :=
  { s with cmds := s.cmds.map (fun (c : FleosCmd) =>
      if c.opcode = 12 ∧ c.phase = .running ∧ which c = true then { c with slipOut := some frame } else c) }

/-- The prompt commands of a context that are owed SLIPPED_OUT complete, once no command of an ended frame runs there. -/
def settleSlipOut (ctx : Nat) (s : State) : State :=
  if s.eng.queues.any (fun e => e.2.ctx == ctx && e.2.late) then s
  else
    s.cmds.foldl (fun s c =>
      match c.slipOut with
      | some f =>
        if c.ctx = ctx ∧ c.isOpen = true then
          let st := fieldAt c.desc 20 4 % 65536
          finish c.order 0xA (f % 2 ^ 32) 0
            (updStream st (fun x => if x.prompt = some c.order then { x with prompt := none, promptToken := none } else x) s)
        else s
      | none => s) s

/-- Prompts and late frames of every context are settled. -/
def settleAll (s : State) : State := (s.contexts.map (·.1)).foldl (fun s c => settleSlipOut c s) s

/-- The work of every frame queue is abandoned and every running prompt command is owed SLIPPED_OUT: the module leaves the
frames of the herd (R35, R59). -/
def leaveFrames (s : State) : State := settleAll (owePrompts (fun _ => true) s.herd.frame (abandonFrames true s))

/-! ### Broadcasts of a master or deputy (R46) -/

/-- Modules to which a master sends: its members and the other modules of its plan. -/
def herdOthers (s : State) : List Nat :=
  ((((s.herd.plan.map (fun p => p.modules.map (·.1))).getD []) ++ s.herd.members).eraseDups).filter
    (fun d => decide (d ≠ devOf s))

/-- The bound on the send time of a broadcast to N modules, in ns. -/
def sendBound (n : Nat) : Nat := 60 + (12 * ((n + 7) / 8) + 9) / 10

/-- A broadcast timed: the time taken is a free value within the bound. -/
def timeBroadcast (s : State) : State :=
  let (t, s) := takeNat (sendBound (herdOthers s).length + 1) s
  updHerd (fun h => { h with sendTimes := (t :: h.sendTimes).take 64 }) s

/-! ### Applying a slip (R53, R54, R61) -/

/-- A slip log entry (R61): the own first request of the held window names engine and queue. -/
def slipEntry (s : State) (frame newS cause first requesters : Nat) : SlipLog :=
  let own := s.herd.sent.find? (fun r => r.frame == frame && r.s + 1 == newS)
  { frame, opened := tickTimeAt s.herd frame (newS - 1) - guardFor s.herd frame, newS, cause
    engine := (own.map (·.engine)).getD 0xFF, queue := (own.map (·.queue)).getD 0xFFFF, first, requesters }

/-- The slip count raised: later ticks move one period per slip; where the held tick has already been taken here, the frame
running was begun early: its commands are owed SLIPPED_OUT and it waits until its tick comes again on the corrected schedule
(R54). -/
def raiseSlips (held newS : Nat) (s : State) : State :=
  let s := updHerd (fun h => { h with s := newS }) s
  if inMode s .ready && s.herd.inFrame && !s.herd.diverged && decide (held ≤ s.herd.frame)
      && decide (s.herd.time < tickTime s.herd s.herd.frame) then
    let s := owePrompts (carriedBy s.herd.frame) s.herd.frame (abandonFrames true (bump 1 15 0 1 s))
    settleAll (updHerd (fun h => { h with diverged := true }) s)
  else s

/-- A SLIP of this epoch with a higher count applied (R53). -/
def applySlip (frame newS cause first requesters : Nat) (s : State) : State :=
  if newS ≤ s.herd.s then s
  else
    let e := slipEntry s frame newS cause first requesters
    raiseSlips frame newS (updHerd (fun h => { h with log := (e :: h.log).take 256 }) (bump 1 9 0 1 s))

/-- A window's decision kept, with the count of consecutive slips of a tick (R51, R52). -/
def noteDecision (k sOld : Nat) (held : Bool) (s : State) : State :=
  updHerd (fun h => { h with
    decided := (k, sOld, held) :: h.decided
    records := h.records.filter (fun r => !(r.frame == k && r.s == sOld))
    slipRun := if held then (if h.slipRun.1 = k then (k, h.slipRun.2 + 1) else (k, 1)) else h.slipRun }) s

/-- A slip of this epoch applied, and its window's record closed. -/
def takeSlip (k newS cause first requesters : Nat) (s : State) : State :=
  if newS ≤ s.herd.s then s else noteDecision k (newS - 1) true (applySlip k newS cause first requesters s)

/-! ### The decision of a guard window (Table 2-6, R51, R52) -/

def windowDecided (h : Herd) (k s : Nat) : Option Bool :=
  (h.decided.find? (fun d => d.1 == k && d.2.1 == s)).map (fun d => d.2.2)

/-- Requests recorded for a window. -/
def windowRecords (h : Herd) (k sOld : Nat) : List SlipRecord := h.records.filter (fun r => r.frame == k && r.s == sOld)

/-- Consecutive slips of a tick so far. -/
def slipsOf (h : Herd) (k : Nat) : Nat := if h.slipRun.1 = k then h.slipRun.2 else 0

/-- A SLIP for tick `k` broadcast and applied here: master (0) or deputy backup (1). -/
def broadcastSlip (k issuer : Nat) (rs : List SlipRecord) (s : State) : State :=
  match rs.head? with
  | none => s
  | some r =>
    let n := min 0xFFFF ((rs.map (·.dev)).eraseDups.length)
    let body := natLe 8 k ++ natLe 8 (s.herd.s + 1) ++ natLe 2 n ++ natLe 1 r.cause ++ natLe 1 issuer ++ natLe 2 r.dev
    takeSlip k (s.herd.s + 1) r.cause r.dev n (timeBroadcast (broadcastHerd (herdOthers s) 5 body s))

/-- The decision of tick `k` − G, once for each window: a master broadcasts the SLIP that it grants; a deputy, which keeps
the same record and count, notes the decision that its own record gives and keeps the requests for its backup (R52). -/
def decideWindow (k : Nat) (s : State) : State :=
  let h := s.herd
  if (windowDecided h k h.s).isSome then s
  else
    let rs := windowRecords h k h.s
    if rs.isEmpty then noteDecision k h.s false s
    else if h.slipMax ≤ slipsOf h k then noteDecision k h.s false (bump 1 10 0 rs.length s)
    else if h.isMaster then broadcastSlip k 0 rs s
    else updHerd (fun h => { h with decided := (k, h.s, true) :: h.decided }) s

/-- The window of the coming tick is decided once herd time has reached tick k − G, whichever row comes first (R51). -/
def closeWindow (s : State) : State :=
  let k := nextTick s
  if inMode s .ready && (s.herd.isMaster || s.herd.isDeputy) && decide (tickTime s.herd k - guardFor s.herd k ≤ s.herd.time) then
    decideWindow k s
  else s

/-! ### Slip requests (R48 to R52) -/

/-- Two requests of one window, cause and engine (R49). -/
def sameRequest (x r : SlipRecord) : Bool := x.frame == r.frame && x.s == r.s && x.cause == r.cause && x.engine == r.engine

/-- One request recorded; a second of the same module for the same window, cause and engine counts as one (R49). -/
def addRecord (r : SlipRecord) (s : State) : State :=
  if s.herd.records.any (fun x => sameRequest x r && x.dev == r.dev) then s
  else updHerd (fun h => { h with records := h.records ++ [r] }) s

/-- A SLIP_REQ at a master or deputy (Table 2-6): it counts only if it comes before tick k − G. A request before that time
whose SLIP_COUNT is neither that of a decided window nor the module's own has no row in the table: it is counted late and
recorded for the next tick (DESIGN CHOICE, log entry 66). -/
def takeRequest (r : SlipRecord) (s : State) : State :=
  let s := closeWindow s
  let h := s.herd
  if h.inFrame && decide (r.frame < h.frame) then bump 1 13 0 1 s
  else
    match windowDecided h r.frame r.s with
    | some true => bump 1 11 0 1 s
    | some false => addRecord { r with frame := r.frame + 1, s := h.s } (bump 1 12 0 1 s)
    | none =>
      if r.s = h.s then addRecord r s
      else addRecord { r with frame := r.frame + 1, s := h.s } (bump 1 12 0 1 s)

/-- SLIP_REQ body (Table 2-3). -/
def slipReqBody (r : SlipRecord) : List Byte :=
  natLe 8 r.frame ++ natLe 8 r.s ++ natLe 1 r.cause ++ natLe 1 r.engine ++ natLe 2 r.queue ++ natLe 20 0

/-- A condition for a slip of tick `k` (R48 to R50): a request to the master and the deputy, at most one per window, cause
and engine, further ones counted here; with SLIP_EN = 0 what would have been a request is counted as an unrequested overrun.
A module stopped under R442 sends none (R483). -/
def requestSlip (k cause engine queue : Nat) (s : State) : State :=
  let h := s.herd
  let r : SlipRecord := { frame := k, s := h.s, dev := devOf s, cause, engine, queue }
  if s.pwr.stopped || !inHerd s then s
  else if (if slipEn s then h.sent else h.overruns).any (fun x => sameRequest x r) then
    updHerd (fun h => { h with further := h.further + 1 }) s
  else if !slipEn s then bump 1 21 0 1 (updHerd (fun h => { h with overruns := h.overruns ++ [r] }) s)
  else
    let s := updHerd (fun h => { h with sent := h.sent ++ [r] }) s
    let s := if 1 ≤ cause ∧ cause ≤ 9 then bump 1 (cause - 1) 0 1 s else s
    let s := if h.isMaster || h.isDeputy then takeRequest r s else s
    let dsts := (if h.isMaster then [] else [h.masterDev])
      ++ (if h.deputyDev < 16384 ∧ h.deputyDev ≠ devOf s then [h.deputyDev] else [])
    if dsts.isEmpty then s else broadcastHerd dsts 4 (slipReqBody r) s

/-- A request of an owner is retransmitted: before the guard point Fleos requests a slip on the FE's behalf for an unfinished
command of a frame program (R48). -/
def retxSlip (o : Owner) (s : State) : State :=
  match o with
  | .queue .fe q =>
    match queueAt s .fe q with
    | some x =>
      let k := nextTick s
      if inMode s .ready && s.herd.inFrame && isFrameQueue s x && unfinished x
          && decide (s.herd.time < tickTime s.herd k - guardFor s.herd k - guardU s.herd) then
        requestSlip k 9 Engine.fe.code q s
      else s
    | none => s
  | _ => s

end Sys2Proof.Machine
end

