-- ==== Sys2Proof/Machine/Links.lean ====
section
/-! DEFINITION. Worl links: flits received, retry, degrade, DOWN and recovery, identity and admission (file 15; R420, R541). -/
namespace Sys2Proof.Machine

/-! ### Route changes (R36, R363) -/

/-- The follower's route to its master changed: delay samples are discarded, the counter runs at its last rate. -/
def routeChange (s : State) : State :=
  if inHerd s && !s.herd.isMaster then { s with herd := { s.herd with samples := [], holdover := true } }
  else s

/-- The primary route towards the master, as HERD packets take it. -/
def masterRoute (s : State) : Option Nat :=
  let r := routesTo s s.herd.masterDev 0
  r.1.orElse (fun _ => r.2)

/-- The state after a change of links, the servo told when the route to the master moved. -/
def afterLinks (before : Option Nat) (s : State) : State := if masterRoute s = before then s else routeChange s

/-! ### Flits received (R357) -/

/-- A flit that is not discarded (R357): its CRC holds, its TYPE is defined, its reserved fields are zero. -/
def flitGood (f : List Byte) : Bool :=
  let t := fieldAt f 0 1
  decide (fieldAt f 252 4 = crc32c (f.take 252)) && decide (t % 8 < 4) && decide (t / 16 = 0)
  && decide (fieldAt f 1 2 / 4096 = 0) && decide (bitsOf (fieldAt f 3 2) 14 12 = 0) && decide (fieldAt f 5 1 = 0)
  && decide (fieldAt f 10 2 = 0) && (decide (t % 8 = 1) || decide (fieldAt f 1 2 = 0))
  && (decide (t % 8 = 1 ∨ t % 8 = 3) || decide (leNat (slice f 12 240) = 0))

/-! ### Retry (R359, R360) -/

/-- Flits up to and with a SEQ are acknowledged, where that SEQ is in the replay buffer. -/
def ackUpTo (l ack : Nat) (s : State) : State :=
  let k := linkOf s l
  match k.replay.findIdx? (fun e => decide (e.seq = ack)) with
  | some i => drainWaiting l (updLink l (fun k => { k with replay := k.replay.drop (i + 1), sameReplays := 0 }) s)
  | none => s

/-- A NAK sent: once until the replay reaches the next expected SEQ. -/
def sendNak (l : Nat) (s : State) : State :=
  let k := linkOf s l
  if k.nakSent then s
  else lcount l 9 1 (putFlit l 2 0 [] (updLink l (fun k => { k with nakSent := true }) s))

/-- Replays reached a limit of R362. -/
def replayLimit (s : State) (l : Nat) : Bool :=
  let k := linkOf s l
  decide (replayMax s ≤ k.replays) || decide (sameMax s ≤ k.sameReplays)

/-- One replay, counted in its window of 1 ms. -/
def countReplay (l : Nat) (s : State) : State :=
  updLink l (fun k =>
    let fresh := decide (1000000 ≤ s.herd.time - k.replayWindow) || decide (k.replays = 0)
    { k with replays := if fresh then 1 else k.replays + 1, replayWindow := if fresh then s.herd.time else k.replayWindow
             sameReplays := k.sameReplays + 1 }) s

/-- NAK: what its ACK covers is acknowledged, the rest replayed (R359). -/
def takeNak (l ack : Nat) (s : State) : State := replayAll l (countReplay l (ackUpTo l ack (lcount l 10 1 s)))

def execNak (link ack : Nat) (s : State) : Answer :=
  .next (if (linkOf s link).state = 2 then takeNak link ack s else s)

/-- REPLAY_TIMEOUT: no ACK has advanced while flits are unacknowledged (R359). -/
def execReplayTimeout (link : Nat) (s : State) : Answer :=
  .next (if (linkOf s link).state = 2 ∧ (linkOf s link).replay ≠ [] then
    replayAll link (countReplay link (lcount link 12 1 s)) else s)

/-- A flit at a receiver (R357, R359, R361): a failed one is discarded and answered with one NAK; ACK and CREDIT of a good
one are taken; DATA is delivered in SEQ order. How the slots of a flit divide among the channels is not given: the channel
credited is a free value. SF gives the place in the superframe (R355). `fec` is what the decoder of R354 found: none for a
codeword it could not correct, else the symbols corrected on each lane. -/
def takeFlit (l : Nat) (f : List Byte) (fec : Option (List Nat)) (s : State) : State :=
  let fecOk := fec.isSome
  let s := match fec with
    | some cs => (List.range 4).foldl (fun s i => lcount l (3 + i) (cs.getD i 0) s) (lcount l 2 1 s)
    | none => lcount l 2 1 s
  let sf := fecOk && flitGood f && bitOf (fieldAt f 0 1) 3
  let s := updLink l (fun k => { k with rxPos := rxAfter sf k.rxPos }) s
  if !fecOk then sendNak l (lcount l 7 1 (lcount l 8 1 s))
  else if !flitGood f then sendNak l (lcount l 8 1 s)
  else
    let ackw := fieldAt f 3 2
    let s := updLink l (fun k => { k with
      credits := (List.range 4).map (fun v => min 256 (k.credits.getD v 0 + fieldAt f (6 + v) 1)) }) s
    let s := if bitOf ackw 15 then ackUpTo l (ackw % 4096) s else s
    let s := drainWaiting l s
    match fieldAt f 0 1 % 8 with
    | 1 =>
      if fieldAt f 1 2 = (linkOf s l).rxNext then
        let (v, s) := takeNat 4 s
        updLink l (fun k => { k with
          rxNext := (k.rxNext + 1) % 4096, nakSent := false, ackValid := true
          delivered := k.delivered ++ [slice f 12 240], owed := k.owed.modify v (· + 15) }) s
      else s
    | 2 => takeNak l (ackw % 4096) s
    | _ => s

def execFlitReceive (link : Nat) (flit : List Byte) (fec : Option (List Nat)) (s : State) : Answer :=
  .next (if (linkOf s link).state = 2 ∨ (linkOf s link).state = 5 then takeFlit link flit fec s else s)

/-! ### Degrade and DOWN (R362 to R364) -/

/-- Active lanes of a mask. -/
def laneCount (m : Nat) : Nat := ((List.range 4).filter (bitOf m)).length

/-- Requests whose last attempt left on a link that goes DOWN are sent again at once on the other route (R388). -/
def resendFrom (l : Nat) (s : State) : State :=
  s.fab.requests.foldl (fun s r =>
    if r.link = some l then
      let p := { r.pkt with pflags := if bitOf r.pkt.pflags 3 then r.pkt.pflags else r.pkt.pflags + 8 }
      let (k, s) := sendRouted p (!r.alternate) (pcount 31 p.dstDev 1 p s)
      { s with fab := { s.fab with requests := s.fab.requests.map (fun x =>
        if x.pkt.dstDev = p.dstDev ∧ x.pkt.seq = p.seq then
          { x with pkt := p, alternate := !r.alternate, link := k, attempts := x.attempts + 1 } else x) } }
      |> retxSlip r.owner
    else s) s

/-- Every copy from a neighbour is dropped (R400). -/
def dropCopies (dev : Nat) (s : State) : State :=
  { s with fab := { s.fab with copies := s.fab.copies.filter (fun c => c.home != dev)
                               staleFills := s.fab.requests.foldl (fun m r => match r.use with
                                 | .loadCache _ => if r.pkt.dstDev = dev then (dev, r.pkt.addr) :: m else m
                                 | _ => m) s.fab.staleFills } }

/-- Herd-control messages that a link holds: on channel 0, sent and not acknowledged or still waiting, and not yet sent a
second time (R548). -/
def heldHerd (k : Link) : List (List Byte) :=
  (k.replay.filter (fun e => e.vc == 0 && !e.again)).map (·.payload)
  ++ (k.waiting.filter (fun w => w.vc == 0 && !w.again)).flatMap (·.pieces)

/-- The herd-control messages held by a link that goes DOWN are sent once more (R548). -/
def resendHerd (held : List (List Byte)) (s : State) : State :=
  held.foldl (fun s e =>
    let r := routesTo s (fieldAt e 4 2) 0
    match r.1.orElse (fun _ => r.2) with
    | some l => sendBytes l 0 false true (refreshPayload s 0 e) s
    | none => s) s

/-- An ACTIVE link leaves that state as `g` says: copies from a fold neighbour go, and what the link held is sent on other
routes (R388, R400, R548). -/
def leaveActive (l : Nat) (g : Link → Link) (s : State) : State :=
  let before := masterRoute s
  let held := heldHerd (linkOf s l)
  let s := updLink l g s
  let s := match foldIndex s l with
    | some i => dropCopies (slotDev s (foldPeer s i).1) s
    | none => s
  afterLinks before (resendFrom l (resendHerd held s))

/-- A link goes DOWN (R364). -/
def linkGoesDown (l : Nat) (s : State) : State :=
  if (linkOf s l).state ≠ 2 then s
  else
    lcount l 14 1 (leaveActive l (fun k => { k with
      state := 4, lanes := 0, degrading := none, replay := [], waiting := [], credits := [256, 256, 256, 256]
      owed := [0, 0, 0, 0], nakSent := false, ackValid := false, replays := 0, sameReplays := 0 }) s)

def execLinkDown (link : Nat) (s : State) : Answer := .next (linkGoesDown link s)

/-- A degrade begins: the CTRL message names the lane and the last accepted SEQ; with one lane left the link goes DOWN. -/
def startDegrade (l lane : Nat) (s : State) : State :=
  let k := linkOf s l
  if laneCount k.lanes ≤ 1 then linkGoesDown l s
  else
    emit (.degrade l lane ((k.rxNext + 4095) % 4096)) (lcount l 13 1 (updLink l (fun k => { k with degrading := some lane }) s))

/-- The active lane with the most symbol errors, ties to the lower (R362). -/
def worstLane (lanes : Nat) (errs : List Nat) : Nat :=
  ((List.range 4).foldl (fun (b : Option Nat) i =>
    if bitOf lanes i then
      match b with
      | none => some i
      | some j => if errs.getD j 0 < errs.getD i 0 then some i else b
    else b) none).getD 0

def execLaneLockLoss (link : Nat) (lost : Option Nat) (symbolErrors : List Nat) (s : State) : Answer :=
  let k := linkOf s link
  .next (if k.state = 2 ∧ k.degrading = none then
    match lost with
    | some lane => if bitOf k.lanes lane then startDegrade link lane s else s
    | none => if replayLimit s link then startDegrade link (worstLane k.lanes symbolErrors) s else s
  else s)

/-- A peer's CTRL degrade message is answered in kind (R362); what its last accepted SEQ covers is acknowledged. -/
def execDegradeMessage (link lane lastSeq : Nat) (s : State) : Answer :=
  let k := linkOf s link
  .next (if k.state = 2 then
    let s := ackUpTo link lastSeq s
    if k.degrading = none then startDegrade link lane s else s
  else s)

/-- The retrain at one lane fewer is complete: flits beyond the peer's last accepted SEQ are replayed and new flits
follow, in a stream that starts afresh (log entry 65); the change is a route change for a master path over the link (R362,
R363). -/
def execRetrainComplete (link lastSeq : Nat) (s : State) : Answer :=
  let k := linkOf s link
  .next (match k.degrading with
    | none => s
    | some lane =>
      if k.state ≠ 2 then s
      else
        let s := updLink link (fun k => { k with
          lanes := if bitOf k.lanes lane then k.lanes - 2 ^ lane else k.lanes, degrading := none, nakSent := false
          replays := 0, sameReplays := 0, tx := TxStream.reset, rxPos := none }) s
        let s := drainWaiting link (replayAll link (ackUpTo link lastSeq s))
        if masterRoute s = some link then routeChange s else s)

/-! ### Identity and admission (R369 to R371) -/

/-- The disable reason of a peer's identity block at training, or none (Table 15-7). -/
def blockDefect (s : State) (l : Nat) (b : List Byte) : Option Nat :=
  let kind := fieldAt b 0 1
  let id := fieldAt b 4 4
  let conn := fieldAt b 3 1
  let reserved := decide (kind ≠ 1 ∧ kind ≠ 2) || decide (fieldAt b 1 1 / 8 ≠ 0) || decide (conn / 128 ≠ 0)
    || decide (fieldAt b 8 8 ≠ 0) || decide (kind = 1 ∧ id / 16384 ≠ 0)
    || decide (kind = 2 ∧ (fieldAt b 1 1 ≠ 0 ∨ conn ≠ 0))
  if reserved then some 8
  else
    match foldIndex s l with
    | some i =>
      let p := foldPeer s i
      if kind ≠ 1 ∨ id ≠ slotDev s p.1 then some 1
      else if conn ≠ p.2 then some 2
      else if fieldAt b 1 1 ≠ s.boot.straps.linksplit then some 3
      else if id = devOf s then some 4 else none
    | none => if kind = 1 ∧ id = devOf s then some 4 else none

def linkErr (l detail : Nat) (s : State) : State :=
  recordErr { blankErr 21 with unitKind := 7, unit := l, detail } s

/-- PEER_KIND of Table 15-10: a reserved KIND is reported as none. -/
def reportedKind (kind : Nat) : Nat := if kind = 1 ∨ kind = 2 then kind else 0

/-- A link as it stands right after training at the lanes reported: sequence numbers and credits afresh. -/
def trainedLink (k : Link) (r : LinkReport) (st : Nat) : Link :=
  { Link.reset with
    state := st, lanes := r.lanes, trainedWidth := laneCount r.lanes, lrev := r.lrev
    peerKind := reportedKind (fieldAt r.block 0 1), peerPort := fieldAt r.block 2 1, peerId := fieldAt r.block 4 4
    admitted := if st = 2 then some (fieldAt r.block 0 1, fieldAt r.block 2 1, fieldAt r.block 4 4) else k.admitted }

/-- The identity block received at training: admitted as ACTIVE, or disabled with its reason (R370). With LINKSPLIT 6 a
link that sees its own block enters LOOPBACK, and every other link DOWN (R368). -/
def identify (r : LinkReport) (s : State) : State :=
  let l := r.link
  if s.boot.straps.linksplit = 6 then
    let own := decide (fieldAt r.block 0 1 = 1) && decide (fieldAt r.block 2 1 = l) && decide (fieldAt r.block 4 4 = devOf s)
    updLink l (fun k => trainedLink k r (if own then 5 else 4)) s
  else
    match blockDefect s l r.block with
    | some d => linkErr l d (updLink l (fun k => { trainedLink k r 3 with disReason := d }) s)
    | none => updLink l (fun k => trainedLink k r 2) s

def execIdentityBlock (report : LinkReport) (s : State) : Answer :=
  .next (if (linkOf s report.link).state = 1 then identify report s else s)

/-- The peer expected at a recovery: the plan's once in the herd, else that of the previous training (R371). -/
def expectedPeer (s : State) (l : Nat) : Option (Nat × Nat × Nat) :=
  match s.herd.plan with
  | some p => if inHerd s then p.links[l]? else (linkOf s l).admitted
  | none => (linkOf s l).admitted

/-- The attempt made once every second on a link that failed training or is DOWN: with no report it fails again; a peer
that matches is admitted, any other disables the link with code 0x07; either writes a record (R371). -/
def execLinkRetrainAttempt (link : Nat) (report : Option LinkReport) (s : State) : Answer :=
  .next (if (linkOf s link).state ≠ 4 ∨ s.boot.released < 7 then s
    else
      match report with
      | none => s
      | some r =>
        let peer := (fieldAt r.block 0 1, fieldAt r.block 2 1, fieldAt r.block 4 4)
        if expectedPeer s link = some peer ∧ blockDefect s link r.block = none then
          let before := masterRoute s
          linkErr link 0 (lcount link 15 1 (afterLinks before (updLink link (fun k => trainedLink k r 2) s)))
        else linkErr link 7 (updLink link (fun k => { trainedLink k r 3 with disReason := 7 }) s))

/-! ### Cable supplies (R541) -/

/-- The 3.3 V supply of a connector reaches its limit: it is switched off and its links lose their peers. -/
def execCableSupplyOverload (connector : Nat) (s : State) : Answer :=
  .next (if s.boot.released < 7 ∨ s.boot.cablesOff.contains connector then s
    else
      let s := { s with boot := { s.boot with cablesOff := connector :: s.boot.cablesOff } }
      (List.range 8).foldl (fun s i => linkGoesDown (8 * connector + i) s) s)

/-- The try after 1 s: the supply comes back unless the overload persists. -/
def execCableSupplyRetry (connector : Nat) (overload : Bool) (s : State) : Answer :=
  .next (if overload then s
    else { s with boot := { s.boot with cablesOff := s.boot.cablesOff.filter (fun c => decide (c ≠ connector)) } })

end Sys2Proof.Machine
end

