-- ==== Sys2Proof/Machine/Numbers.lean ====
section
/-! DEFINITION. Number formats (file 07): element codes, granule layouts, binary32 arithmetic by exact integers, the
quantiser, the rotation. -/
namespace Sys2Proof.Machine

/-! ### Values -/

/-- A number as an exact value: (−1)^neg × m × 2^e, an infinity or a NaN. -/
inductive Fl where
  | fin (neg : Bool) (m : Nat) (e : Int)
  | inf (neg : Bool)
  | nan (neg : Bool) (mant : Nat)
deriving DecidableEq, Repr

def f32Neg (x : F32) : Bool := x.toNat / 2 ^ 31 == 1

/-- The value of a binary32 code. -/
def f32Val (x : F32) : Fl :=
  let n := x.toNat
  let s := f32Neg x
  let e : Nat := n / 2 ^ 23 % 256
  let m := n % 2 ^ 23
  if e = 255 then (if m = 0 then .inf s else .nan s m)
  else if e = 0 then .fin s m (-149) else .fin s (2 ^ 23 + m) ((e : Int) - 150)

def isNonFinite (x : F32) : Bool := x.toNat / 2 ^ 23 % 256 == 255

/-- `m × 2^(−k)` rounded to an integer, ties to even (R184). -/
def shiftRne (m k : Nat) : Nat :=
  let q := m / 2 ^ k
  let r := m % 2 ^ k
  if k = 0 then m
  else if 2 * r > 2 ^ k || (2 * r == 2 ^ k && q % 2 == 1) then q + 1 else q

def natOfInt (i : Int) : Nat := i.toNat

/-- round_f32 (R162): nearest, ties to even, subnormals kept, overflow to infinity. -/
def roundF32 (neg : Bool) (m : Nat) (e : Int) : F32 :=
  let sign := if neg then 2 ^ 31 else 0
  if m = 0 then BitVec.ofNat 32 sign
  else
    let q := max (e + (Nat.log2 m + 1 : Nat) - 24) (-149)
    let r := if q ≤ e then m * 2 ^ natOfInt (e - q) else shiftRne m (natOfInt (q - e))
    let (r, q) := if r ≥ 2 ^ 24 then (r / 2, q + 1) else (r, q)
    if r < 2 ^ 23 then BitVec.ofNat 32 (sign + r)
    else
      let b := natOfInt (q + 150)
      if b ≥ 255 then BitVec.ofNat 32 (sign + 255 * 2 ^ 23)
      else BitVec.ofNat 32 (sign + b * 2 ^ 23 + (r - 2 ^ 23))

def f32Inf (neg : Bool) : F32 := if neg then 0xFF800000 else 0x7F800000

/-- A quiet NaN whose sign and low bits are free (Config.nanBits). -/
def f32Nan (op : Nat) (a b : F32) : F32 :=
  let x := (Config.nanBits op a b).toNat
  BitVec.ofNat 32 (x / 2 ^ 22 * 2 ^ 31 + 0x7FC00000 + x % 2 ^ 22)

/-- Exact signed mantissa at a common exponent. -/
def alignTo (neg : Bool) (m : Nat) (e q : Int) : Int :=
  let v : Int := (m * 2 ^ natOfInt (e - q) : Nat)
  if neg then -v else v

def ofSigned (i : Int) (e : Int) : F32 := roundF32 (decide (i < 0)) i.natAbs e

def addF32 (a b : F32) : F32 :=
  match f32Val a, f32Val b with
  | .nan _ _, _ | _, .nan _ _ => f32Nan 0 a b
  | .inf s, .inf t => if s = t then f32Inf s else f32Nan 0 a b
  | .inf s, _ => f32Inf s
  | _, .inf s => f32Inf s
  | .fin s m e, .fin t n f =>
    if m = 0 ∧ n = 0 then (if s && t then 0x80000000 else 0)
    else
      let q := min e f
      let v := alignTo s m e q + alignTo t n f q
      if v = 0 then 0 else ofSigned v q

def negF32 (a : F32) : F32 := a ^^^ 0x80000000

def mulF32 (a b : F32) : F32 :=
  match f32Val a, f32Val b with
  | .nan _ _, _ | _, .nan _ _ => f32Nan 1 a b
  | .inf s, .inf t => f32Inf (s != t)
  | .inf s, .fin t m _ => if m = 0 then f32Nan 1 a b else f32Inf (s != t)
  | .fin s m _, .inf t => if m = 0 then f32Nan 1 a b else f32Inf (s != t)
  | .fin s m e, .fin t n f => roundF32 (s != t) (m * n) (e + f)

/-- Order of two values, −0 and +0 equal; false with a NaN. -/
def ltF32 (a b : F32) : Bool :=
  match f32Val a, f32Val b with
  | .nan _ _, _ | _, .nan _ _ => false
  | .inf s, .inf t => s && !t
  | .inf s, _ => s
  | _, .inf t => !t
  | .fin s m e, .fin t n f =>
    let q := min e f
    decide (alignTo s m e q < alignTo t n f q)

def isNan (x : F32) : Bool := isNonFinite x && decide (x.toNat % 2 ^ 23 ≠ 0)

/-! ### Quotients, exponentials, roots: references for the circuits of Table 6-10 -/

/-- num / den × 2^e as mantissa and exponent, with a sticky bit: `den` is not 0. -/
def ratioFix (num den : Nat) (e : Int) : Nat × Int :=
  let k := 80 + Nat.log2 (den + 1)
  let n := num * 2 ^ k
  (2 * (n / den) + (if n % den = 0 then 0 else 1), e - k - 1)

/-- num / den × 2^e rounded. -/
def ratioF32 (neg : Bool) (num den : Nat) (e : Int) : F32 := roundF32 neg (ratioFix num den e).1 (ratioFix num den e).2

/-- Bits of an integer square root, from the top. -/
def isqrtAux : (fuel : Nat) → (r n : Nat) → Nat
  | 0, r, _ => r
  | k + 1, r, n => let c := r + 2 ^ k; isqrtAux k (if c * c ≤ n then c else r) n

def isqrt (n : Nat) : Nat := isqrtAux (Nat.log2 n / 2 + 1) 0 n

/-- ln 2 in units of 2⁻⁹⁶. -/
def ln2Fix : Int := 0xB17217F7D1CF79ABC9E3B398

/-- The exponential series over a fraction in units of 2⁻⁹⁶. -/
def expSeries : (fuel i : Nat) → (r term acc : Int) → Int
  | 0, _, _, _, acc => acc
  | k + 1, i, r, term, acc =>
    let t := term * r / ((i : Int) * 2 ^ 96)
    expSeries k (i + 1) r t (acc + t)

/-- e^x as mantissa and exponent, for a finite x; far below every code under the range, none above it. -/
def expFix (neg : Bool) (m : Nat) (e : Int) : Option (Nat × Int) :=
  let huge := decide (e + (Nat.log2 (m + 1) : Nat) > 9)
  if huge then (if neg then some (1, -1000) else none)
  else
    let x : Int := if e + 96 ≥ 0 then (m * 2 ^ natOfInt (e + 96) : Nat) else (m / 2 ^ natOfInt (-(e + 96)) : Nat)
    let x := if neg then -x else x
    let k := x / ln2Fix
    let r := x - k * ln2Fix
    some ((expSeries 34 1 r (2 ^ 96) (2 ^ 96)).toNat, k - 96)

/-- A finite code `c` is within `bound` units of the last place of m × 2^e. -/
def withinUlps (bound m : Nat) (e : Int) (c : F32) : Bool :=
  match f32Val c with
  | .fin _ n f =>
    let u := max (e + (Nat.log2 m : Nat) - 23) (-149)
    let q := min (min e f) u
    let d : Int := alignTo false m e q - alignTo false n f q
    decide (d.natAbs ≤ bound * 2 ^ natOfInt (u - q))
  | _ => false

/-- (−1)^neg × m × 2^e as a circuit of Table 6-10 gives it: some value within the bound, which one is free (R164, R165). -/
def nudge (bound : Nat) (off : Int) (neg : Bool) (m : Nat) (e : Int) : F32 :=
  let x := roundF32 neg m e
  if isNonFinite x || m == 0 then x
  else
    let o := max (-(2 * bound : Int)) (min (2 * bound) off)
    let c := (max 0 (((x.toNat % 2 ^ 31 : Nat) : Int) + o)).toNat
    if withinUlps bound m e (BitVec.ofNat 32 c) then BitVec.ofNat 32 (x.toNat / 2 ^ 31 * 2 ^ 31 + c) else x

/-- e^(a − b) within 2 ulp of the exact difference (EXP_SUB). -/
def expSubF32 (a b : F32) : F32 :=
  match f32Val a, f32Val b with
  | .nan _ _, _ | _, .nan _ _ => f32Nan 7 a b
  | .inf s, .inf t => if s = t then f32Nan 7 a b else if s then 0 else f32Inf false
  | .inf s, _ => if s then 0 else f32Inf false
  | _, .inf t => if t then f32Inf false else 0
  | .fin s m e, .fin t n f =>
    let q := min e f
    let d := alignTo s m e q - alignTo t n f q
    match expFix (decide (d < 0)) d.natAbs q with
    | none => f32Inf false
    | some (k, p) => nudge 2 (Config.vopError 7 a b) false k p

/-- e^x by the circuit of EXP_SUB (R222, R262). -/
def expF32 (x : F32) : F32 := expSubF32 x 0

/-- 1 ÷ x within 1 ulp. -/
def recipF32 (x : F32) : F32 :=
  match f32Val x with
  | .nan _ _ => f32Nan 9 x 0
  | .inf s => if s then 0x80000000 else 0
  | .fin s m e => if m = 0 then f32Inf s
    else nudge 1 (Config.vopError 9 x 0) s (ratioFix 1 m (-e)).1 (ratioFix 1 m (-e)).2

/-- a ÷ (1 + e^(−a)) × b within 2 ulp; at a = −∞, where the manual states no value, any. -/
def siluMulF32 (a b : F32) : F32 :=
  match f32Val a, f32Val b with
  | .nan _ _, _ | _, .nan _ _ => f32Nan 4 a b
  | .inf s, _ => if s then BitVec.ofInt 32 (Config.vopError 4 a b) else mulF32 a b
  | .fin s m _, .inf t => if m = 0 then f32Nan 4 a b else f32Inf (s != t)
  | .fin s m e, .fin t n f =>
    if m = 0 ∨ n = 0 then BitVec.ofNat 32 (if s != t then 2 ^ 31 else 0)
    else
      match expFix (!s) m e with
      | none => nudge 2 (Config.vopError 4 a b) (s != t) 1 (-1000)
      | some (k, q) =>
        let den := if q ≤ 0 then 2 ^ natOfInt (-q) + k else 1 + k * 2 ^ natOfInt q
        let sc : Int := if q ≤ 0 then -q else 0
        let y := ratioFix (m * n) den (e + f + sc)
        nudge 2 (Config.vopError 4 a b) (s != t) y.1 y.2

/-- 1 ÷ √(sum ÷ cols + imm) within 2 ulp. -/
def rsqrtMeanF32 (sum imm : F32) (cols : Nat) : F32 :=
  match f32Val sum, f32Val imm with
  | .nan _ _, _ | _, .nan _ _ => f32Nan 10 sum imm
  | .inf s, .inf t => if s || t then f32Nan 10 sum imm else 0
  | .inf s, _ => if s then f32Nan 10 sum imm else 0
  | _, .inf s => if s then f32Nan 10 sum imm else 0
  | .fin s m e, .fin t n f =>
    let q := min (min e f) 0
    let d := alignTo s m e q + (cols : Int) * alignTo t n f q
    if d < 0 then f32Nan 10 sum imm
    else if d = 0 then f32Inf false
    else
      let sh := 200 + 2 * Nat.log2 d.natAbs
      let q2 := if (q - sh) % 2 = 0 then natOfInt (sh : Int) else sh + 1
      nudge 2 (Config.vopError (10 + 16 * cols) sum imm) false (2 * isqrt (cols * 2 ^ q2 / d.natAbs) + 1) (-((q + q2) / 2) - 1)

/-! ### Element formats (Tables 6-4, 7-1) -/

/-- Bits of a value of a format. -/
def fmtBits (f : Nat) : Nat :=
  match f with
  | 0 => 2 | 1 => 3 | 2 => 4 | 3 => 4 | 4 => 8 | 5 => 8 | 6 => 8 | 7 => 8 | 8 => 8 | 9 => 8 | 10 => 16 | _ => 32

/-- Values per granule (Table 6-4). -/
def fmtValues (f : Nat) : Nat :=
  match f with
  | 0 => 256 | 1 => 160 | 2 => 128 | 3 => 128 | 4 => 64 | 5 => 64 | 6 => 64 | 7 => 64 | 8 => 64 | 9 => 64 | 10 => 32
  | _ => 16

/-- Class of a format: 0 4-bit, 1 8-bit, 2 16-bit. -/
def fmtClass (f : Nat) : Nat := if f < 4 then 0 else if f < 10 then 1 else 2

/-- The format carries block scales. -/
def fmtScaled (f : Nat) : Bool := decide (f < 7)

/-- Code `i` of a granule (R172). -/
def codeAt (f : Nat) (g : Granule) (i : Nat) : Nat :=
  let w := fmtBits f
  leNat (slice g.payload (w * i / 8) ((w * i % 8 + w + 7) / 8)) / 2 ^ (w * i % 8) % 2 ^ w

/-- The payload of codes. -/
def packCodes (f : Nat) (cs : List Nat) : List Byte :=
  natLe 64 (cs.foldr (fun c acc => c + 2 ^ fmtBits f * acc) 0)

/-- A float code of `eb` exponent and `mb` mantissa bits as a value. -/
def smallFloat (eb mb bias c : Nat) : Fl :=
  let s := c / 2 ^ (eb + mb) % 2 == 1
  let e := c / 2 ^ mb % 2 ^ eb
  let m := c % 2 ^ mb
  if e = 0 then .fin s m (1 - (bias : Int) - mb) else .fin s (2 ^ mb + m) ((e : Int) - bias - mb)

/-- sig(): the value of a code without its block scale (Tables 7-1 to 7-4). -/
def sigOf (f c : Nat) : Fl :=
  let int (w : Nat) : Fl := let v := signedOf w c; .fin (decide (v < 0)) v.natAbs 0
  match f with
  | 0 => if c = 1 then .fin false 1 0 else if c = 3 then .fin true 1 0 else .fin false 0 0
  | 1 => int 3
  | 2 => smallFloat 2 1 1 c
  | 3 => int 4
  | 4 => if c % 128 = 127 then .nan (decide (c ≥ 128)) 1 else smallFloat 4 3 7 c
  | 7 => if c % 128 = 127 then .nan (decide (c ≥ 128)) 1 else smallFloat 4 3 7 c
  | 5 => if c % 128 = 124 then .inf (decide (c ≥ 128)) else if c % 128 > 124 then .nan (decide (c ≥ 128)) 1
         else smallFloat 5 2 15 c
  | 8 => if c % 128 = 124 then .inf (decide (c ≥ 128)) else if c % 128 > 124 then .nan (decide (c ≥ 128)) 1
         else smallFloat 5 2 15 c
  | 6 => int 8
  | 9 => int 8
  | 10 => f32Val (BitVec.ofNat 32 (c * 65536))
  | _ => f32Val (BitVec.ofNat 32 c)

def flNonFinite : Fl → Bool
  | .fin _ _ _ => false
  | _ => true

/-- Tag byte `b`. -/
def tagAt (g : Granule) (b : Nat) : Nat := (g.tags.getD b 0).toNat

/-- Block `b` of a granule is poisoned (R180 to R182, R412). -/
def blockPoison (f : Nat) (g : Granule) (b : Nat) : Bool :=
  isPoison g || (decide (f < 10) && tagAt g b == 255)
  || ((f == 4 || f == 5) && (List.range 32).any (fun i => flNonFinite (sigOf f (codeAt f g (32 * b + i)))))

/-- A block of a scaled E8 format with a code that is not finite (R181). -/
def formatError (f : Nat) (g : Granule) (b : Nat) : Bool :=
  (f == 4 || f == 5) && !isPoison g && tagAt g b != 255
  && (List.range 32).any (fun i => flNonFinite (sigOf f (codeAt f g (32 * b + i))))

def blockZero (f : Nat) (g : Granule) (b : Nat) : Bool := fmtScaled f && tagAt g b == 0

/-- The scale exponent of a block; 0 for unscaled formats. -/
def blockExp (f : Nat) (g : Granule) (b : Nat) : Int := if fmtScaled f then (tagAt g b : Int) - 127 else 0

/-! ### The quantiser (R183 to R186) -/

/-- What a conversion counts (R186, R194). -/
structure Counts where
  clip : Nat
  lossy : Nat
  exact : Nat
  edge : Nat
  poisoned : Nat
deriving DecidableEq, Repr

def Counts.none : Counts := { clip := 0, lossy := 0, exact := 0, edge := 0, poisoned := 0 }

def Counts.plus (a b : Counts) : Counts :=
  { clip := a.clip + b.clip, lossy := a.lossy + b.lossy, exact := a.exact + b.exact, edge := a.edge + b.edge,
    poisoned := a.poisoned + b.poisoned }

/-- QMAX as mantissa and exponent (Table 7-1). -/
def qmax (f : Nat) : Nat × Int :=
  match f with
  | 0 => (1, 0) | 1 => (3, 0) | 2 => (6, 0) | 3 => (7, 0) | 4 => (448, 0) | 5 => (57344, 0) | 6 => (127, 0)
  | 7 => (448, 0) | 8 => (57344, 0) | _ => (127, 0)

/-- m × 2^e at most n × 2^f. -/
def leDyadic (m : Nat) (e : Int) (n : Nat) (f : Int) : Bool :=
  let q := min e f
  decide (m * 2 ^ natOfInt (e - q) ≤ n * 2 ^ natOfInt (f - q))

/-- m × 2^e rounded to an integer, ties to even. -/
def roundInt (m : Nat) (e : Int) : Nat := if e ≥ 0 then m * 2 ^ natOfInt e else shiftRne m (natOfInt (-e))

/-- The magnitude code of a float format nearest to m × 2^e, ties to the even mantissa (R184): `mb` mantissa bits, lowest
exponent `emin` of the unit of subnormals. -/
def roundSmall (mb : Nat) (emin : Int) (m : Nat) (e : Int) : Nat :=
  if m = 0 then 0
  else
    let q := max (e + (Nat.log2 m : Nat) - mb) emin
    let r := roundInt m (e - q)
    let (r, q) := if r ≥ 2 ^ (mb + 1) then (r / 2, q + 1) else (r, q)
    if r < 2 ^ mb then r else natOfInt (q - emin + 1) * 2 ^ mb + (r - 2 ^ mb)

/-- The code of (−1)^neg × m × 2^e in a format, limited to QMAX; whether it was clipped (R183 step 4, R185). -/
def encodeValue (f : Nat) (neg : Bool) (m : Nat) (e : Int) : Nat × Bool :=
  let (qm, qe) := qmax f
  let isOver := !leDyadic m e qm qe
  let (m, e) := if isOver then (qm, qe) else (m, e)
  let sgn (w mag : Nat) := if mag = 0 then 0 else if neg then 2 ^ w - mag else mag
  let flt (w mag : Nat) := if mag = 0 then 0 else if neg then 2 ^ (w - 1) + mag else mag
  let code := match f with
    | 0 => sgn 2 (roundInt m e)
    | 1 => sgn 3 (roundInt m e)
    | 2 => flt 4 (roundSmall 1 (-1) m e)
    | 3 => sgn 4 (roundInt m e)
    | 4 => flt 8 (roundSmall 3 (-9) m e)
    | 7 => flt 8 (roundSmall 3 (-9) m e)
    | 5 => flt 8 (roundSmall 2 (-16) m e)
    | 8 => flt 8 (roundSmall 2 (-16) m e)
    | _ => sgn 8 (roundInt m e)
  (code, isOver)

/-- The smallest integer e with m × 2^k ≤ q × 2^e, clamped to −126..127 (R183 step 3). -/
def scaleExp (f m : Nat) (k : Int) : Int :=
  let (qm, _) := qmax f
  let guess := k + (Nat.log2 m : Nat) - (Nat.log2 qm : Nat) - 1
  let e := if leDyadic m k qm guess then guess else if leDyadic m k qm (guess + 1) then guess + 1 else guess + 2
  max (-126) (min 127 e)

/-- A quantised block: 32 codes, its tag, its counts. -/
structure QBlock where
  codes : List Nat
  tag : Nat
  counts : Counts

/-- Codes of a poisoned block. -/
def poisonBlock : QBlock := { codes := List.replicate 32 0, tag := 255, counts := { Counts.none with poisoned := 1 } }

def pad32 (cs : List Nat) : List Nat := cs ++ List.replicate (32 - cs.length) 0

/-- A block-scaled destination (R183). `vs` are the valid values. -/
def quantScaled (f : Nat) (vs : List F32) : QBlock :=
  if vs.isEmpty then { codes := pad32 [], tag := 0, counts := Counts.none }
  else if vs.any isNonFinite then poisonBlock
  else
    let ms := vs.map f32Val
    let top := ms.foldl (fun (b : Nat × Int) v => match v with
      | .fin _ m e => if leDyadic m e b.1 b.2 then b else (m, e)
      | _ => b) (0, 0)
    if top.1 = 0 then { codes := pad32 [], tag := 0, counts := { Counts.none with exact := 1 } }
    else
      let e := scaleExp f top.1 top.2
      let r := ms.map (fun v => match v with
        | .fin s m k => encodeValue f s m (k - e)
        | _ => (0, false))
      let clip := (r.filter (·.2)).length
      if r.all (fun x => x.1 == 0) then
        { codes := pad32 [], tag := 0, counts := { Counts.none with clip, lossy := 1 } }
      else
        let tag := natOfInt (e + 127)
        { codes := pad32 (r.map (·.1)), tag,
          counts := { Counts.none with clip, edge := if tag = 1 ∨ tag = 254 then 1 else 0 } }

/-- An unscaled E8 or I8 destination (R182, R185). -/
def quantUnscaled (f : Nat) (vs : List F32) : QBlock :=
  if f = 9 ∧ vs.any isNonFinite then poisonBlock
  else
    let r := vs.map (fun x => match f32Val x with
      | .fin s m e => encodeValue f s m e
      | .inf s => ((if s then 128 else 0) + (if f = 7 then 127 else 124), false)
      | .nan s _ => ((if s then 128 else 0) + 127, false))
    { codes := pad32 (r.map (·.1)), tag := 0, counts := { Counts.none with clip := (r.filter (·.2)).length } }

/-- F32 to B16: nearest, ties to even; whether it was clipped (Table 7-7). -/
def toB16 (x : F32) : Nat × Bool :=
  let n := x.toNat
  match f32Val x with
  | .nan _ _ => ((n / 65536) ||| 64, false)
  | .inf _ => (n / 65536, false)
  | .fin _ _ _ =>
    let r := shiftRne n 16
    (r, decide (r % 32768 = 0x7F80))

/-- Values of a row in chunks of one granule. -/
def chunksOf {α : Type} : (fuel k : Nat) → List α → List (List α)
  | 0, _, _ => []
  | n + 1, k, l => if l.isEmpty then [] else l.take k :: chunksOf n k (l.drop k)

/-- One granule of a row quantised; each value comes with whether its source is poisoned. -/
def quantGranule (f : Nat) (vs : List (F32 × Bool)) : Granule × Counts :=
  if f = 10 then
    if vs.any (·.2) then (poisonGran, { Counts.none with poisoned := 1 })
    else
      let r := vs.map (fun v => toB16 v.1)
      ({ payload := packCodes 10 (r.map (·.1)), tags := List.replicate 8 0 },
       { Counts.none with clip := (r.filter (·.2)).length })
  else
    let bs := (List.range (fmtValues f / 32)).map (fun b =>
      let part := (vs.drop (32 * b)).take 32
      if part.any (·.2) then poisonBlock
      else if fmtScaled f then quantScaled f (part.map (·.1)) else quantUnscaled f (part.map (·.1)))
    let tags := bs.map (fun b => BitVec.ofNat 8 b.tag)
    ({ payload := packCodes f (bs.flatMap (·.codes)), tags := tags ++ List.replicate (8 - tags.length) 0 },
     bs.foldl (fun c b => c.plus b.counts) Counts.none)

/-- A row quantised. -/
def quantRow (f : Nat) (vs : List (F32 × Bool)) : List Granule × Counts :=
  let gs := (chunksOf (vs.length + 1) (fmtValues f) vs).map (quantGranule f)
  (gs.map (·.1), gs.foldl (fun c g => c.plus g.2) Counts.none)

/-- Value `i` of a granule widened to F32, block scale applied, and whether it is poisoned (R174 to R182). -/
def valueAt (f : Nat) (g : Granule) (i : Nat) : F32 × Bool :=
  let c := codeAt f g i
  if f = 10 then (BitVec.ofNat 32 (c * 65536), isPoison g)
  else if 10 < f then (BitVec.ofNat 32 c, isPoison g)
  else if blockPoison f g (i / 32) then (0, true)
  else if blockZero f g (i / 32) then (0, false)
  else
    match sigOf f c with
    | .fin s m e => (roundF32 s m (e + blockExp f g (i / 32)), false)
    | .inf s => (f32Inf s, false)
    | .nan s m => (BitVec.ofNat 32 ((if s then 2 ^ 31 else 0) + 0x7FC00000 + m % 2 ^ 22), false)

/-- The values of a row, with what is poisoned. -/
def rowValues (f cols : Nat) (gs : List Granule) : List (F32 × Bool) :=
  (gs.flatMap (fun g => (List.range (fmtValues f)).map (valueAt f g))).take cols

/-! ### The rotation (R187 to R190) -/

/-- The sign hash of a position. -/
def rotHash (seed i : Nat) : Nat :=
  let h : BitVec 32 := BitVec.ofNat 32 seed ^^^ (BitVec.ofNat 32 i * 0x9E3779B9)
  let h := h ^^^ (h >>> 16)
  let h := h * 0x85EBCA6B
  let h := h ^^^ (h >>> 13)
  let h := h * 0xC2B2AE35
  (h ^^^ (h >>> 16)).toNat

/-- One stage of butterflies of distance `len`. -/
def butterfly (len : Nat) (xs : List F32) : List F32 :=
  (List.range xs.length).map (fun i =>
    if i / len % 2 = 0 then addF32 (xs.getD i 0) (xs.getD (i + len) 0)
    else addF32 (xs.getD (i - len) 0) (negF32 (xs.getD i 0)))

def butterflies : (stages len : Nat) → List F32 → List F32
  | 0, _, xs => xs
  | k + 1, len, xs => butterflies k (2 * len) (butterfly len xs)

/-- c[n] (Table 7-8). -/
def rotScale (code : Nat) : F32 :=
  match code with
  | 0 => 0x3E000000 | 1 => 0x3DB504F3 | 2 => 0x3D800000 | _ => 0x3D3504F3

/-- One run of 64 × 2^code values rotated; a poisoned value poisons the run. A value that is not finite anywhere makes the whole
run so: what the butterflies left finite is then a NaN, whose bits the manual leaves open (R189; log entry 71). -/
def rotRun (code seed : Nat) (vs : List (F32 × Bool)) : List (F32 × Bool) :=
  let xs := (vs.zipIdx).map (fun v => if rotHash seed v.2 % 2 = 1 then negF32 v.1.1 else v.1.1)
  let p := vs.any (·.2)
  let ys := butterflies (6 + code) 1 xs
  let spread := ys.any isNonFinite
  ys.map (fun x => (if spread && !isNonFinite x then f32Nan 11 x (BitVec.ofNat 32 seed) else mulF32 x (rotScale code), p))

def rotRow (code seed : Nat) (vs : List (F32 × Bool)) : List (F32 × Bool) :=
  (chunksOf (vs.length + 1) (64 * 2 ^ code) vs).flatMap (rotRun code seed)

end Sys2Proof.Machine
end

