-- ==== Sys2Proof/Machine/Tiles.lean ====
section
/-! DEFINITION. Tile programs on PE and GE units, and the precision guard (files 06, 08, R207 to R209). -/
namespace Sys2Proof.Machine

/-! ### Memory errors met by an access (R343 to R345, R420) -/

/-- The T1 originals of weights that hold an address: a record, and the layer owed a reload (R324, R326). -/
def noteWeightPoison (a : Nat) (s : State) : State :=
  s.contexts.foldl (fun s (c : Nat × Context) =>
    c.2.layers.foldl (fun s (l : Nat × List Extent) =>
      if l.2.any (fun x => decide (x.dest ≤ a) && decide (a < x.dest + x.length)) then
        let s := recordErr { blankErr 26 with ctx := c.1, addr := a, detail := l.1 } s
        updCtx c.1 (fun x => { x with poisonedLayers :=
          if x.poisonedLayers.contains l.1 then x.poisonedLayers else x.poisonedLayers ++ [l.1] }) s
      else s) s) s

/-- The slots of hot pools whose image holds an address are emptied at the next tick (R273, R324). -/
def emptyHot (a : Nat) (s : State) : State :=
  { s with contexts := s.contexts.map (fun (c : Nat × Context) => (c.1, { c.2 with hotPools := c.2.hotPools.map (fun (h : Nat × HotPool) =>
      let hit := (List.range h.2.hotSlots).filter (fun j => h.2.hotBase.any (fun b =>
        let at_ := b + j * h.2.partBytes + h.2.woff
        decide (at_ ≤ a) && decide (a < at_ + h.2.imagePart)))
      (h.1, if hit.isEmpty then h.2 else { h.2 with toEmpty := h.2.toEmpty ++ hit })) })) }

/-- A pseudo-channel has exhausted its retries once more; 16 times within 1 ms mark it failed (R343, R345). -/
def channelExhausted (ch : Nat) (s : State) : State :=
  let st := stackAt s (ch / 64)
  let (n, t) := (tabGet st.exhausted (ch % 64)).getD (0, s.herd.time)
  let (n, t) := if s.herd.time - t < 1000000 then (n + 1, t) else (1, s.herd.time)
  let s := updStack (ch / 64) (fun x => { x with exhausted := tabSet x.exhausted (ch % 64) (n, t) }) s
  let s := bump 10 6 (ch / 64) 1 s
  if 16 ≤ n ∧ !s.mem.failed.contains ch then
    let s := { s with mem := { s.mem with failed := ch :: s.mem.failed } }
    recordErr { blankErr 9 with unitKind := 2, unit := ch / 64, detail := ch % 64 } (bump 10 9 (ch / 64) 1 s)
  else s

/-- A corrected SRAM word, counted for its die (R410). -/
def countCorrected (a : Nat) (s : State) : State :=
  let d := if a < 0x28000000000 then (a - 0x20000000000) / 2 ^ 30
    else if a < 0x2C000000000 then 100 + (a - 0x28000000000) / 0x20000000
    else 200 + (a - 0x2C000000000) / 0x10000000
  { s with mem := { s.mem with corrected := tabPut s.mem.corrected d (tabNat s.mem.corrected d + 1) } }

/-- One failing access of a LOAD or STORE. -/
def applyMemErr (s : State) (e : MemErr) : State :=
  let a := e.addr / 64 * 64
  match placeOf a, e.kind with
  | .t1, .corrected => bump 10 7 (channelOf s a / 64) 1 s
  | .store, .corrected => countCorrected a s
  | .core, .corrected => countCorrected a s
  | .t1, .retried => bump 10 5 (channelOf s a / 64) 1 s
  | .t1, .exhausted =>
    let ch := channelOf s a
    let s := bump 10 5 (ch / 64) 4 { s with mem := rawPut s.mem a poisonGran }
    let s := recordErr { blankErr 8 with unitKind := 2, unit := ch / 64, addr := a, detail := ch % 64 } s
    emptyHot a (noteWeightPoison a (channelExhausted ch s))
  | .t1, .stackUe =>
    let ch := channelOf s a
    let s := bump 10 8 (ch / 64) 1 { s with mem := rawPut s.mem a poisonGran }
    emptyHot a <| noteWeightPoison a (recordErr { blankErr 7 with unitKind := 2, unit := ch / 64, addr := a, detail := ch % 64 } s)
  | .store, .sramUe =>
    recordErr { blankErr 6 with unitKind := 3, unit := (a - 0x20000000000) / 2 ^ 30, addr := a, detail := 1 }
      { s with mem := rawPut s.mem a poisonGran }
  | .core, .sramUe => recordErr { blankErr 6 with addr := a, detail := 2 } { s with mem := rawPut s.mem a poisonGran }
  | .t1, .queueUe =>
    recordErr { blankErr 6 with unitKind := 2, unit := (stackPlace s a).1, addr := a, detail := 8 }
      { s with mem := rawPut s.mem a poisonGran }
  | .store, .queueUe =>
    recordErr { blankErr 6 with unitKind := 3, unit := (a - 0x20000000000) / 2 ^ 30, addr := a, detail := 8 }
      { s with mem := rawPut s.mem a poisonGran }
  | _, _ => s

/-- Granules whose request a failing queue held, as they are in memory: a load of them returns poison and a store to them is
discarded, and memory keeps what it had (Table 18-4). -/
def lostGrans (errs : List MemErr) (s : State) : List (Nat × Granule) :=
  (errs.filter (fun e => e.kind == .queueUe)).map (fun e => (e.addr / 64 * 64, rawGran s.mem (e.addr / 64 * 64)))

def keepGrans (gs : List (Nat × Granule)) (s : State) : State :=
  gs.foldl (fun s g => { s with mem := rawPut s.mem g.1 g.2 }) s

/-! ### Local memory (R15, R151) -/

def localBase (e : Engine) (unit : Nat) : Nat :=
  match e with
  | .ge => 0x2C000000000 + unit / 1600 * 2 ^ 28 + unit % 1600 * 65536
  | _ => 0x28000000000 + unit / 5120 * 2 ^ 29 + unit % 5120 * 65536

/-- Granules of local memory (Tables 6-1, 9-1). -/
def localGrans (e : Engine) : Nat := match e with | .ge => 1024 | _ => 768

def localGet (s : State) (e : Engine) (u i : Nat) : Granule := rawGran s.mem (localBase e u + 64 * i)

def localPut (e : Engine) (u i : Nat) (g : Granule) (s : State) : State :=
  { s with mem := rawPut s.mem (localBase e u + 64 * i) g }

/-- Every granule of local memory reads as zero (R151). -/
def clearLocal (e : Engine) (u : Nat) (s : State) : State :=
  let b := localBase e u
  let n := localGrans e
  { s with mem := { s.mem with
      cells := s.mem.cells.filter (fun c => !(decide (b ≤ c.1) && decide (c.1 < b + 64 * n)))
      tags := s.mem.tags.filter (fun c => !(decide (b / 8 ≤ c.1) && decide (c.1 < b / 8 + 8 * n))) } }

def f32At (g : Granule) (i : Nat) : F32 := BitVec.ofNat 32 (codeAt 11 g i)

/-! ### Tasks and their programs (R152 to R154) -/

def taskAt (s : State) (e : Engine) (u : Nat) : Option Task :=
  s.eng.tasks.find? (fun t => t.engine == e && t.unit == u)

def setTask (t : Task) (s : State) : State :=
  { s with eng := { s.eng with tasks := s.eng.tasks.map (fun x =>
    if x.engine == t.engine && x.unit == t.unit then t else x) } }

/-- Bytes as they stand, for instruction and descriptor fetches. -/
def peek (s : State) (a n : Nat) : List Byte := (loadBytes a n s).1

/-- In T1 or the Store, whole. -/
def inT1Store (a n : Nat) : Bool :=
  decide (a + n ≤ 0x1E000000000) || (decide (0x20000000000 ≤ a) && decide (a + n ≤ 0x20400000000))

def Run.base (r : Run) (n : Nat) : Nat := fieldAt r.cmd (32 + 8 * n) 8

/-- The instructions of a program as they stand in memory. -/
def instrsAt (s : State) (prog len : Nat) : List (List Byte) := (List.range len).map (fun i => peek s (prog + 64 + 32 * i) 32)

/-- PG of a program: that of the first MMA with one (R191). -/
def pgOf (bs : List (List Byte)) : Nat :=
  bs.foldl (fun pg b => if pg = 0 ∧ fieldAt b 0 1 = 5 then fieldAt b 3 1 % 4 else pg) 0

def progPg (s : State) (prog len : Nat) : Nat := pgOf (instrsAt s prog len)

/-- The granule of the row count, below the base that the header names, may be read (R154). -/
def rowCountOk (base : Nat) : Bool := decide (base % 64 = 0) && decide (64 ≤ base) && inT1Store (base - 64) 64

/-- The guard descriptor lies in T1 or the Store (R192). -/
def guardAt (prog pg : Nat) : Option Nat := if 64 * pg ≤ prog ∧ inT1Store (prog - 64 * pg) 64 = true then some (prog - 64 * pg) else none

/-- Bytes read where there is an address to read; none without. -/
def loadOpt (a : Option Nat) (n : Nat) (s : State) : List Byte × State :=
  match a with
  | some a => ((loadBytes a n s).1, (loadBytes a n s).2.2)
  | none => ([], s)

/-- What a task reads before its first instruction (R153, R154, R192). -/
def readRun (t : Task) (s : State) : Option (Run × State) :=
  match (queueAt s t.engine t.queue).bind headOf with
  | none => none
  | some c =>
    let prog := c.body 32 8
    let (h, _, s) := loadBytes prog 64 s
    let len := fieldAt h 2 2
    let div := fieldAt h 12 4
    let tq := if div = 0 then t.index else t.index / div
    let tr := if div = 0 then 0 else t.index % div
    let rpt := fieldAt h 4 4
    let base := c.body (32 + 8 * fieldAt h 8 1) 8
    let rc := loadOpt (if rpt ≠ 0 ∧ rowCountOk base = true then some (base - 64) else none) 4 s
    let bs := instrsAt rc.2 prog (min len 1024)
    let pg := pgOf bs
    let gd := loadOpt (if pg = 0 then none else guardAt prog pg) 64 rc.2
    some ({ cmd := c, prog, header := h, len, tq, tr, pg, gd := gd.1
            vrows := if rpt = 0 then none else some (min rpt (fieldAt rc.1 0 4 - tq * rpt))
            forms := if pg = 0 then [] else bs.map (fun b => (fieldAt b 0 1, fieldAt b 1 1, fieldAt b 2 1)) }, gd.2)

/-- The instruction buffer filled: 64 instructions from the next one, as far as the program goes (R150). -/
def fetchCode (t : Task) (r : Run) (s : State) : Task × State :=
  let n := t.code.length
  (List.range (min 64 (r.len - t.pc) - n)).foldl (fun (a : Task × State) i =>
    let (b, _, s) := loadBytes (r.prog + 64 + 32 * (t.pc + n + i)) 32 a.2
    ({ a.1 with code := a.1.code ++ [b] }, s)) (t, s)

/-- rows_eff (R154). -/
def rowsEff (r : Run) (rows r0 : Nat) : Nat :=
  match r.vrows with
  | none => rows
  | some v => min rows (v - r0)

/-! ### The guard descriptor (R192, Table 8-1) -/

def gdMaxRung (g : List Byte) : Nat := fieldAt g 1 1
def gdClass (g : List Byte) : Nat := fieldAt g 2 1
def gdSticky (g : List Byte) : Nat × Nat := (fieldAt g 16 2, fieldAt g 18 2)

def gdClean (g : List Byte) : Bool :=
  decide (fieldAt g 0 1 = 1) && decide (gdMaxRung g = 1 ∨ gdMaxRung g = 2) && decide (gdClass g < 64)
  && decide (fieldAt g 3 1 = 0) && decide ((gdSticky g).2 ≤ 4096)
  && decide (if (gdSticky g).1 = 0 then (gdSticky g).2 = 0 else 1 ≤ (gdSticky g).2)
  && decide (fieldAt g 20 4 = 0) && decide (fieldAt g 24 8 % 64 = 0) && decide (fieldAt g 32 8 % 64 = 0)
  && decide (leNat (slice g 40 24) = 0)

/-- The format that a rung gives (Table 8-2). -/
def rungFmt (rung f : Nat) : Nat :=
  if rung = 1 ∧ f < 4 then 4 else if rung ≥ 2 ∧ f < 10 then 10 else f

/-- Scope of the guard counters (Table 23-8). -/
def guardScope (ctx prog cls : Nat) : Nat := ctx * 2 ^ 24 + prog * 2 ^ 8 + cls

/-! ### Extents and defects (Tables 6-11, 8-3) -/

/-- Granules of a row of `cols` values. -/
def rowGrans (f cols : Nat) : Nat := (cols + fmtValues f - 1) / fmtValues f

/-- The local extent of rows ends beyond the last granule. -/
def localOver (e : Engine) (loff rstr rows n : Nat) : Bool := decide (localGrans e < loff + (rows - 1) * rstr + n)

/-- A package row of `n` granules may be touched by a core: in T1 or the Store, for a GE core in its own stack (R208). The manual
has no defect for an offset, stride or base that is no multiple of 64: a row whose address comes out so is taken as outside
(DESIGN CHOICE, log entry 71). -/
def packageOk (s : State) (e : Engine) (u a n : Nat) : Bool :=
  decide (a % 64 = 0) && inT1Store a (64 * n)
  && (match e with
      | .ge => decide (a + 64 * n ≤ 0x1E000000000)
               && (List.range n).all (fun i => (stackPlace s (a + 64 * i)).1 == u / 1600)
      | _ => true)

/-- Address of package row `i` (R157). -/
def packageRow (r : Run) (b : List Byte) (n offAt qAt rAt strideAt i : Nat) : Nat :=
  r.base n + fieldAt b offAt 4 + r.tq * fieldAt b qAt 4 + r.tr * fieldAt b rAt 4 + i * fieldAt b strideAt 2 * 64

def rblk (b : List Byte) : Nat := 64 * 2 ^ (fieldAt b 3 1 % 4)

/-- The first defect that applies, by its row. -/
def firstDefect (ds : List (Bool × Nat)) : Option Nat := (ds.find? (·.1)).map (·.2)

def loadDefect (s : State) (t : Task) (r : Run) (b : List Byte) : Option Nat :=
  let sf := fieldAt b 2 1 % 16
  let df := fieldAt b 2 1 / 16
  let rot := bitOf (fieldAt b 1 1) 0
  let sel := fieldAt b 3 1
  let rows := fieldAt b 4 2
  let cols := fieldAt b 6 2
  let quant := decide (sf ≠ df)
  let mx := if r.pg ≠ 0 ∧ quant then rungFmt (gdMaxRung r.gd) df else df
  firstDefect [
    (decide (fieldAt b 1 1 / 2 ≠ 0) || decide (sel / 16 ≠ 0) || decide (sel / 4 % 4 = 0)
      || (!rot && (decide (sel % 4 ≠ 0) || decide (fieldAt b 28 4 ≠ 0))) || decide (12 ≤ sf) || decide (12 ≤ df), 1),
    ((quant && !(decide (sf = 10 ∨ sf = 11) && decide (df ≤ 10) && decide (sf ≠ df))) || (rot && !quant)
      || (rot && decide (cols % rblk b ≠ 0)), 4),
    (decide (rows = 0 ∨ 128 < rows) || decide (cols = 0 ∨ 16384 < cols), 5),
    (localOver t.engine (fieldAt b 8 2) (fieldAt b 10 2) rows (rowGrans df cols), 6),
    ((List.range rows).any (fun i =>
      !packageOk s t.engine t.unit (packageRow r b (sel / 4 % 4) 16 20 24 14 i) (rowGrans sf cols)), 7),
    (decide (r.pg ≠ 0) && (decide (fieldAt b 10 2 < rowGrans mx cols)
      || localOver t.engine (fieldAt b 8 2) (fieldAt b 10 2) rows (rowGrans mx cols)), 0x103),
    (decide (r.pg ≠ 0) && !quant && decide (sf < 10), 0x104)]

def storeDefect (s : State) (t : Task) (r : Run) (b : List Byte) : Option Nat :=
  let sf := fieldAt b 2 1 % 16
  let df := fieldAt b 2 1 / 16
  let sel := fieldAt b 3 1
  let rows := fieldAt b 4 2
  let cols := fieldAt b 6 2
  firstDefect [
    (decide (fieldAt b 1 1 ≠ 0) || decide (sel % 4 ≠ 0) || decide (sel / 16 ≠ 0) || decide (sel / 4 % 4 = 0)
      || decide (fieldAt b 28 4 ≠ 0) || decide (12 ≤ sf) || decide (12 ≤ df), 1),
    (decide (sf ≠ df) && !(decide (sf = 11) && decide (df = 10)), 4),
    (decide (rows = 0 ∨ 128 < rows) || decide (cols = 0 ∨ 16384 < cols), 5),
    (localOver t.engine (fieldAt b 8 2) (fieldAt b 10 2) rows (rowGrans sf cols), 6),
    ((List.range rows).any (fun i =>
      !packageOk s t.engine t.unit (packageRow r b (sel / 4 % 4) 16 20 24 14 i) (rowGrans df cols)), 7),
    (decide (r.pg ≠ 0) && decide (sf = df) && decide (sf < 10), 0x105)]

/-- Which operands a VOP reads: 0 none, 1 full rows, 2 a column, 3 a row. -/
def vopB (op : Nat) : Nat :=
  match op with
  | 1 => 1 | 2 => 1 | 4 => 1 | 7 => 2 | 8 => 2 | 11 => 3 | _ => 0

def vopReduces (op : Nat) : Bool := op == 5 || op == 6 || op == 10

def vopDefect (t : Task) (b : List Byte) : Option Nat :=
  let op := fieldAt b 1 1
  let rows := fieldAt b 4 2
  let cols := fieldAt b 6 2
  let n := rowGrans 11 cols
  firstDefect [
    (decide (op = 0 ∨ 12 ≤ op) || decide (fieldAt b 2 2 ≠ 0) || decide (fieldAt b 26 6 ≠ 0)
      || (decide (vopB op = 0) && decide (fieldAt b 10 2 ≠ 0)), 1),
    (decide (rows = 0 ∨ 128 < rows) || decide (cols = 0 ∨ 4096 < cols), 5),
    (localOver t.engine (fieldAt b 8 2) (fieldAt b 14 2) rows n
      || (decide (vopB op = 1) && localOver t.engine (fieldAt b 10 2) (fieldAt b 16 2) rows n)
      || (decide (vopB op = 2) && localOver t.engine (fieldAt b 10 2) (fieldAt b 16 2) rows 1)
      || (decide (vopB op = 3) && localOver t.engine (fieldAt b 10 2) 0 1 n)
      || localOver t.engine (fieldAt b 12 2) (fieldAt b 18 2) rows (if vopReduces op then 1 else n), 6)]

def mmaClass (af wf : Nat) : Nat := max (fmtClass af) (fmtClass wf)

def kvLimit (cls : Nat) : Nat := match cls with | 0 => 512 | 1 => 256 | _ => 128

def maxNv (e : Engine) : Nat := match e with | .ge => 16 | _ => 32

/-- Weight format and byte offset at a rung: the primary weights, or a shadow with its scale of offsets (R196). -/
def weightSource (r : Run) (rung wf : Nat) : Nat × Nat × Nat :=
  let e8 := fieldAt r.gd 24 8
  let b16 := fieldAt r.gd 32 8
  if rung ≥ 2 ∧ b16 ≠ 0 ∧ wf < 10 then (10, b16, fmtValues wf / 32)
  else if rung ≥ 1 ∧ e8 ≠ 0 ∧ wf < 4 then (4, e8, fmtValues wf / 64)
  else (wf, 0, 1)

/-- Address of weight column `n` from a source (R160, R196). -/
def weightCol (r : Run) (b : List Byte) (src : Nat × Nat × Nat) (n : Nat) : Nat :=
  (r.base (fieldAt b 3 1 / 4 % 4) + src.2.1
    + src.2.2 * (fieldAt b 20 4 + r.tq * fieldAt b 24 4 + r.tr * fieldAt b 28 4 + n * fieldAt b 18 2 * 64)) % 2 ^ 64

/-- The defect of an MMA; a C_RSTR below that of Table 6-7 counts as a field beyond its limit (DESIGN CHOICE, log entry 71). -/
def mmaDefect (s : State) (t : Task) (r : Run) (b : List Byte) : Option Nat :=
  let fl := fieldAt b 1 1
  let hold := bitOf fl 0
  let af := fieldAt b 2 1 % 16
  let wf := fieldAt b 2 1 / 16
  let sel := fieldAt b 3 1
  let mv := fieldAt b 4 1
  let nv := fieldAt b 5 1
  let kv := fieldAt b 6 2
  let heldF := (t.tile.map (·.fmt)).getD wf
  let amx := if r.pg = 0 then af else rungFmt (gdMaxRung r.gd) af
  let guarded := decide (r.pg ≠ 0)
  let shadowOut (rung : Nat) : Bool :=
    let src := weightSource r rung wf
    decide (src.2.1 ≠ 0) && (List.range nv).any (fun n =>
      !packageOk s t.engine t.unit (weightCol r b src n) (rowGrans src.1 kv))
  firstDefect [
    (decide (fl / 4 ≠ 0) || decide (sel / 16 ≠ 0) || decide (12 ≤ af) || decide (12 ≤ wf)
      || (!hold && decide (sel / 4 % 4 = 0)), 1),
    (decide (af = 11) || decide (wf = 11), 4),
    (decide (mv = 0 ∨ 128 < mv) || decide (nv = 0 ∨ maxNv t.engine < nv)
      || decide (kv = 0 ∨ kvLimit (mmaClass af (if hold then heldF else wf)) < kv)
      || decide (fieldAt b 14 2 < maxNv t.engine / 16), 5),
    (localOver t.engine (fieldAt b 8 2) (fieldAt b 10 2) mv (rowGrans af kv)
      || localOver t.engine (fieldAt b 12 2) (fieldAt b 14 2) mv ((nv + 15) / 16), 6),
    (!hold && (List.range nv).any (fun n =>
      !packageOk s t.engine t.unit (weightCol r b (wf, 0, 1) n) (rowGrans wf kv)), 7),
    (hold && (match t.tile with
      | none => true
      | some k => decide (k.nv ≠ nv ∨ k.kv ≠ kv) || decide (wf ≠ 0) || decide (sel / 4 % 4 ≠ 0)
          || decide (fieldAt b 18 2 ≠ 0) || decide (leNat (slice b 20 12) ≠ 0)), 8),
    (guarded && decide (sel % 4 ≠ r.pg), 0x101),
    (guarded && decide (kvLimit (mmaClass amx (weightSource r (gdMaxRung r.gd) (if hold then heldF else wf)).1) < kv), 0x102),
    (guarded && (decide (fieldAt b 10 2 < rowGrans amx kv)
      || localOver t.engine (fieldAt b 8 2) (fieldAt b 10 2) mv (rowGrans amx kv)), 0x103),
    (guarded && !hold && ((decide (wf = 1) && decide (fieldAt r.gd 24 8 ≠ 0 ∨ fieldAt r.gd 32 8 ≠ 0))
      || shadowOut 1 || (decide (gdMaxRung r.gd = 2) && shadowOut 2)), 0x106)]

/-- Header and guard descriptor defects, met before the first instruction. -/
def headerDefect (s : State) (x : Queue) (r : Run) : Option Nat :=
  let h := r.header
  let rcb := fieldAt h 8 1
  let rpt := fieldAt h 4 4
  let st := ((progAt s x.ctx x.program).bind (fun p => tabGet p.classes (gdClass r.gd)))
  firstDefect [
    (decide (3 < rcb) || decide (fieldAt h 9 3 ≠ 0) || decide (leNat (slice h 16 48) ≠ 0)
      || decide (16777215 < fieldAt h 12 4) || decide (65536 < rpt), 1),
    (decide (fieldAt h 0 2 ≠ 1) || decide (r.len = 0 ∨ 1024 < r.len) || (decide (rpt = 0) != decide (rcb = 0)), 2),
    (decide (rpt ≠ 0) && !rowCountOk (r.base rcb), 7),
    (decide (r.pg ≠ 0) && (guardAt r.prog r.pg).isNone, 7),
    (decide (r.pg ≠ 0) && !gdClean r.gd, 1),
    (decide (r.pg ≠ 0) && (match st with
      | some y => y.seen && decide ((y.stickyRepeats, y.stickyFrames) ≠ gdSticky r.gd)
      | none => false), 0x107)]

/-- A tile defect: the record that the queue will fault with (R168). -/
def tileFault (t : Task) (instr row : Nat) (s : State) : State := faultTask t { blankErr 4 with instr, detail := row } s

/-! ### TILE_RUN and TEND -/

/-- The record of a layer class, made at its first descriptor since PROGRAM_START (R200, R202). -/
def noteClass (x : Queue) (gd : List Byte) (s : State) : State :=
  updProg x.ctx x.program (fun p =>
    let y := (tabGet p.classes (gdClass gd)).getD
      { repeats := 0, topRung := 0, left := 0, rung := 0, armed := false, stickyRepeats := 0, stickyFrames := 0, seen := false }
    if y.seen then p
    else
      let y := { y with stickyRepeats := (gdSticky gd).1, stickyFrames := (gdSticky gd).2, seen := true }
      { p with classes := tabSet p.classes (gdClass gd) y }) s

/-- A run begins: local memory cleared, both banks empty, sums zero, the first instruction next (R151, R193). -/
def beginRun (t : Task) (r : Run) (rung : Nat) (s : State) : State :=
  let (t, s) := fetchCode { t with
    run := some r, pc := 0, code := [], rung, clip := 0, zeroBlocks := 0, edge := 0, failed := false, tile := none
    refetched := none, ahead := none, stores := [] } r (clearLocal t.engine t.unit s)
  setTask t s

def execTileRun (e : Engine) (unit : Nat) (s : State) : Answer :=
  .next (match taskAt s e unit with
    | none => s
    | some t =>
      if t.run.isSome then s
      else
        match readRun t s, queueAt s e t.queue with
        | some (r, s), some x =>
          match headerDefect s x r with
          | some d => tileFault t 0xFFFF d s
          | none => beginRun t r t.rung (if r.pg = 0 then s else noteClass x r.gd s)
        | _, _ => s)

/-- The formats that an instruction takes at a rung: of a quantising LOAD its destination, of an MMA its A operand and the
weights it fetches (R195, R196). -/
def formsAt (r : Run) (rung : Nat) (i : Nat × Nat × Nat) : List Nat :=
  if i.1 = 2 ∧ i.2.2 % 16 ≠ i.2.2 / 16 then [rungFmt rung (i.2.2 / 16)]
  else if i.1 = 5 then rungFmt rung (i.2.2 % 16) :: (if bitOf i.2.1 0 then [] else [(weightSource r rung (i.2.2 / 16)).1])
  else []

/-- The lowest rung above the task's, up to MAX_RUNG, that changes a format of the task (R197). -/
def nextRung (t : Task) (r : Run) : Option Nat :=
  if r.pg = 0 then none
  else [1, 2].find? (fun n => decide (t.rung < n) && decide (n ≤ gdMaxRung r.gd)
    && r.forms.any (fun i => formsAt r n i != formsAt r t.rung i))

/-- A STORE of the run has not reached its memory: its granule waits for a recall (R155, R198). -/
def storesWait (s : State) (t : Task) : Bool :=
  t.stores.any (fun a => match dirAt s a with
    | some d => !d.writes.isEmpty
    | none => false)

/-- Guard counters of a run that ends (R206). -/
def countRun (x : Queue) (r : Run) (s : State) : State :=
  if r.pg = 0 then s else bump 2 0 (guardScope x.ctx x.program (gdClass r.gd)) 1 s

/-- The instruction due, if the task runs and has one of the opcode. -/
def dueInstr (s : State) (e : Engine) (u top : Nat) : Option (Task × Run × List Byte) :=
  match taskAt s e u with
  | some t =>
    match t.run, t.code with
    | some r, b :: _ => if t.pc < r.len ∧ fieldAt b 0 1 = top then some (t, r, b) else none
    | _, _ => none
  | none => none

/-- A task ends, finished: a command with a defect faults once it was the last (R168). -/
def endTask (t : Task) (s : State) : State :=
  settleDefect t.engine t.queue (updQueue t.engine t.queue (fun x => { x with finished := x.finished + 1 })
    (dropTask t.engine t.unit s))

/-- TEND ends the task once its stores have reached memory, unless its guard has failed and a wider rung remains. An instruction
index that reaches LEN, and a reserved TOP, are tile defects. -/
def execTend (e : Engine) (unit : Nat) (s : State) : Answer :=
  .next (match taskAt s e unit with
    | none => s
    | some t =>
      match t.run, queueAt s e t.queue with
      | some r, some x =>
        let b := t.code.headD []
        let top := fieldAt b 0 1
        if r.len ≤ t.pc then tileFault t t.pc 3 s
        else if top = 0 ∨ 6 ≤ top ∨ (top = 1 ∧ leNat (slice b 1 31) ≠ 0) then tileFault t t.pc 1 s
        else if top ≠ 1 then s
        else if storesWait s t then s
        else if t.failed ∧ (nextRung t r).isSome then s
        else
          let s := countRun x r s
          endTask t (if t.failed then bump 2 3 (guardScope x.ctx x.program (gdClass r.gd)) 1 s else s)
      | _, _ => s)

/-! ### LOAD and STORE -/

/-- Scope of a run's counters: its class, 0xFF where it is not guarded (R206). -/
def runScope (x : Queue) (r : Run) : Nat := guardScope x.ctx x.program (if r.pg = 0 then 0xFF else gdClass r.gd)

/-- The quantisation sums of the run and the counters (R193, R206). -/
def addCounts (t : Task) (x : Queue) (r : Run) (c : Counts) (s : State) : State :=
  let scope := runScope x r
  let s := bump 2 4 scope c.clip (bump 2 5 scope c.lossy (bump 2 6 scope c.exact (bump 2 7 scope c.edge
    (bump 2 8 scope c.poisoned s))))
  let sat (n : Nat) := min 0xFFFFFFFF n
  let clip := sat (t.clip + c.clip)
  let zeros := sat (t.zeroBlocks + c.lossy)
  let edge := sat (t.edge + c.edge)
  let hit := decide (r.pg ≠ 0) && (decide (fieldAt r.gd 4 4 < clip) || decide (fieldAt r.gd 8 4 < zeros)
    || decide (fieldAt r.gd 12 4 < edge))
  setTask { t with clip, zeroBlocks := zeros, edge, failed := t.failed || hit } s

/-- `n` granules put into local memory. -/
def localPuts (e : Engine) (u i : Nat) : List Granule → State → State
  | [], s => s
  | g :: r, s => localPuts e u (i + 1) r (localPut e u i g s)

/-- The rows of a LOAD (R158). -/
def loadRows (t : Task) (r : Run) (b : List Byte) : (n i : Nat) → Counts → State → Counts × State
  | 0, _, c, s => (c, s)
  | n + 1, i, c, s =>
    let sf := fieldAt b 2 1 % 16
    let df := fieldAt b 2 1 / 16
    let cols := fieldAt b 6 2
    let (gs, s) := loadGrans (rowGrans sf cols) (packageRow r b (fieldAt b 3 1 / 4 % 4) 16 20 24 14 i) s
    let dst := fieldAt b 8 2 + i * fieldAt b 10 2
    if sf = df then loadRows t r b n (i + 1) c (localPuts t.engine t.unit dst gs s)
    else
      let vs := rowValues sf cols gs
      let vs := if bitOf (fieldAt b 1 1) 0 then rotRow (fieldAt b 3 1 % 4) (fieldAt b 28 4) vs else vs
      let (out, k) := quantRow (rungFmt t.rung df) vs
      loadRows t r b n (i + 1) (c.plus k) (localPuts t.engine t.unit dst out s)

/-- The columns of a weight tile read (R160, R196). -/
def fetchTile (r : Run) (rung : Nat) (b : List Byte) (s : State) : Tile × State :=
  let src := weightSource r rung (fieldAt b 2 1 / 16)
  let nv := fieldAt b 5 1
  let kv := fieldAt b 6 2
  let (cols, s) := (List.range nv).foldl (fun (a : List (List Granule) × State) n =>
    let (gs, s) := loadGrans (rowGrans src.1 kv) (weightCol r b src n) a.2
    (a.1 ++ [gs], s)) ([], s)
  ({ fmt := src.1, nv, kv, cols }, s)

/-- The next MMA in the instruction buffer that fetches its weights, behind the instruction that runs: its index and itself. -/
def nextFetch (t : Task) : Option (Nat × List Byte) :=
  ((t.code.zipIdx.drop 1).find? (fun c => fieldAt c.1 0 1 == 5 && !bitOf (fieldAt c.1 1 1) 0)).map (fun c => (t.pc + c.2, c.1))

/-- While an instruction runs, the weights of the next MMA with WHOLD = 0 are fetched into the bank not in use (R163). -/
def fetchAhead (t : Task) (r : Run) (s : State) : Task × State :=
  match nextFetch t with
  | none => (t, s)
  | some (i, b) =>
    if t.ahead.any (fun a => a.1 == i) || (mmaDefect s t r b).isSome then (t, s)
    else
      let (tile, s) := fetchTile r t.rung b s
      ({ t with ahead := some (i, tile) }, s)

/-- The instruction is done: the weights of the next MMA have been fetched meanwhile, and the next instruction is due. -/
def advance (t : Task) (s : State) : State :=
  match taskAt s t.engine t.unit with
  | none => s
  | some t =>
    match t.run with
    | none => s
    | some r =>
      let (t, s) := fetchAhead t r s
      let (t, s) := fetchCode { t with pc := t.pc + 1, code := t.code.drop 1 } r s
      setTask t s

/-- What a STORE has written: a fetch that overlaps it has waited for it (R166), so what was fetched before is fetched again, and
granules whose write waits for a recall are noted. -/
def noteStore (t : Task) (r : Run) (rows : List (Nat × Nat)) (s : State) : State :=
  let hit (a n : Nat) : Bool := rows.any (fun w => decide (a < w.1 + 64 * w.2 ∧ w.1 < a + n))
  let waits := (rows.flatMap (fun w => (List.range w.2).map (fun i => w.1 + 64 * i))).filter (fun a => (dirAt s a).isSome)
  let ahead := t.ahead.filter (fun a => match t.code[a.1 - t.pc]? with
    | some b =>
      let src := weightSource r t.rung (fieldAt b 2 1 / 16)
      !(List.range (fieldAt b 5 1)).any (fun n => hit (weightCol r b src n) (64 * rowGrans src.1 (fieldAt b 6 2)))
    | none => false)
  setTask { t with
    stores := t.stores ++ waits, ahead
    code := if hit (r.prog + 64 + 32 * (t.pc + 1)) (32 * 64) then t.code.take 1 else t.code } s

def execLoad (e : Engine) (unit : Nat) (errs : List MemErr) (s : State) : Answer :=
  .next (match dueInstr s e unit 2 with
    | none => s
    | some (t, r, b) =>
      match loadDefect s t r b, queueAt s e t.queue with
      | some d, _ => tileFault t t.pc d s
      | none, some x =>
        let kept := lostGrans errs s
        let (c, s) := loadRows t r b (rowsEff r (fieldAt b 4 2) (fieldAt b 12 2)) 0 Counts.none (errs.foldl applyMemErr s)
        advance t (addCounts t x r c (keepGrans kept s))
      | none, none => s)

/-- One granule of a STORE from F32 to B16: 32 values from two granules (R159, Table 18-2). -/
def toB16Gran (vs : List (F32 × Bool)) : Granule :=
  if vs.any (·.2) then poisonGran
  else { payload := packCodes 10 (vs.map (fun v => (toB16 v.1).1)), tags := List.replicate 8 0 }

/-- Values that a STORE from F32 to B16 clips (R185). -/
def clippedB16 (vs : List (F32 × Bool)) : Nat := (vs.filter (fun v => !v.2 && (toB16 v.1).2)).length

def keepBytes (n : Nat) (bs : List Byte) : List Byte := bs.take n ++ List.replicate (bs.length - n) 0

/-- A copied granule of which the row has `n` values: the bytes that lie beyond them are written as zero (R159, R179). -/
def trimGran (f n : Nat) (g : Granule) : Granule :=
  if isPoison g then g
  else
    let n := min n (fmtValues f)
    { payload := keepBytes ((n * fmtBits f + 7) / 8) g.payload, tags := keepBytes (if f < 10 then (n + 31) / 32 else 0) g.tags }

/-- The package rows that a STORE writes: address and granules. -/
def storeSpans (r : Run) (b : List Byte) (n : Nat) : List (Nat × Nat) :=
  (List.range n).map (fun i =>
    (packageRow r b (fieldAt b 3 1 / 4 % 4) 16 20 24 14 i, rowGrans (fieldAt b 2 1 / 16) (fieldAt b 6 2)))

/-- The rows of a STORE: how many values were clipped, and the state after. -/
def storeRows (t : Task) (r : Run) (b : List Byte) : (n i : Nat) → Nat → State → Nat × State
  | 0, _, k, s => (k, s)
  | n + 1, i, k, s =>
    let sf := fieldAt b 2 1 % 16
    let df := fieldAt b 2 1 / 16
    let cols := fieldAt b 6 2
    let gs := (List.range (rowGrans sf cols)).map (fun j =>
      localGet s t.engine t.unit (fieldAt b 8 2 + i * fieldAt b 10 2 + j))
    let vs := rowValues 11 cols gs
    let out := if sf = df then gs.zipIdx.map (fun g => trimGran sf (cols - g.2 * fmtValues sf) g.1)
      else (chunksOf (cols + 1) 32 vs).map toB16Gran
    storeRows t r b n (i + 1) (k + if sf = df then 0 else clippedB16 vs)
      (putGrans (packageRow r b (fieldAt b 3 1 / 4 % 4) 16 20 24 14 i) out s)

def execStore (e : Engine) (unit : Nat) (errs : List MemErr) (s : State) : Answer :=
  .next (match dueInstr s e unit 3 with
    | none => s
    | some (t, r, b) =>
      match storeDefect s t r b, queueAt s e t.queue with
      | some d, _ => tileFault t t.pc d s
      | none, some x =>
        let n := rowsEff r (fieldAt b 4 2) (fieldAt b 12 2)
        let kept := lostGrans errs s
        let (k, s) := storeRows t r b n 0 0 s
        advance t (noteStore t r (storeSpans r b n) (bump 2 4 (runScope x r) k (keepGrans kept (errs.foldl applyMemErr s))))
      | none, none => s)

/-! ### VOP (R164, R165) -/

/-- The fixed order of reductions: 32 lane sums, then pairs of pairs. -/
def pairwise : (levels : Nat) → List F32 → F32
  | 0, xs => xs.headD 0
  | k + 1, xs => pairwise k ((List.range (xs.length / 2)).map (fun i => addF32 (xs.getD (2 * i) 0) (xs.getD (2 * i + 1) 0)))

def rowSum (xs : List F32) : F32 :=
  pairwise 5 ((List.range 32).map (fun j =>
    match (xs.zipIdx.filter (fun p => p.2 % 32 == j)).map (·.1) with
    | [] => 0
    | y :: ys => ys.foldl addF32 y))

def maxF32 (a b : F32) : F32 :=
  if isNan a then a else if isNan b then b
  else if ltF32 a b then b else if ltF32 b a then a else if f32Neg a then b else a

def vopElem (op : Nat) (imm a b : F32) : F32 :=
  match op with
  | 1 => addF32 a b
  | 2 => mulF32 a b
  | 3 => mulF32 a imm
  | 4 => siluMulF32 a b
  | 7 => expSubF32 a b
  | 8 => mulF32 a b
  | 9 => recipF32 a
  | _ => mulF32 a b

def vopReduce (op : Nat) (imm : F32) (xs : List F32) : F32 :=
  match op with
  | 5 => match xs with | [] => 0 | y :: ys => ys.foldl maxF32 y
  | 6 => rowSum xs
  | _ => rsqrtMeanF32 (rowSum (xs.map (fun x => mulF32 x x))) imm xs.length

/-- Elements of a granule from index `lo` written; a granule that keeps an element keeps its poison. -/
def putF32s (g : Granule) (vs : List F32) (poison : Bool) : Granule :=
  if poison then poisonGran
  else if isPoison g ∧ vs.length < 16 then g
  else { payload := splice g.payload 0 (vs.flatMap (fun v => natLe 4 v.toNat)), tags := List.replicate 8 0 }

/-- One row of a VOP. -/
def vopRow (t : Task) (b : List Byte) (i : Nat) (s : State) : State :=
  let op := fieldAt b 1 1
  let cols := fieldAt b 6 2
  let n := rowGrans 11 cols
  let imm : F32 := BitVec.ofNat 32 (fieldAt b 20 4)
  let row (loff : Nat) := (List.range n).map (fun j => localGet s t.engine t.unit (loff + j))
  let ag := row (fieldAt b 8 2 + i * fieldAt b 14 2)
  let av := rowValues 11 cols ag
  let cAt := fieldAt b 12 2 + i * fieldAt b 18 2
  let bcol := localGet s t.engine t.unit (fieldAt b 10 2 + i * fieldAt b 16 2)
  let bg := if vopB op = 1 then row (fieldAt b 10 2 + i * fieldAt b 16 2)
    else if vopB op = 3 then row (fieldAt b 10 2) else []
  let bv := rowValues 11 cols bg
  if vopReduces op then
    let v := vopReduce op imm (av.map (·.1))
    localPut t.engine t.unit cAt (putF32s (localGet s t.engine t.unit cAt) [v] (ag.any isPoison)) s
  else
    (List.range n).foldl (fun s j =>
      let k := min 16 (cols - 16 * j)
      let p := isPoison (ag.getD j zeroGran) || (vopB op == 2 && isPoison bcol)
        || (decide (vopB op = 1 ∨ vopB op = 3) && isPoison (bg.getD j zeroGran))
      let vs := (List.range k).map (fun c =>
        vopElem op imm (av.getD (16 * j + c) (0, false)).1
          (if vopB op = 2 then f32At bcol 0 else (bv.getD (16 * j + c) (0, false)).1))
      localPut t.engine t.unit (cAt + j) (putF32s (localGet s t.engine t.unit (cAt + j)) vs p) s) s

def execVop (e : Engine) (unit : Nat) (s : State) : Answer :=
  .next (match dueInstr s e unit 4 with
    | none => s
    | some (t, r, b) =>
      match vopDefect t b with
      | some d => tileFault t t.pc d s
      | none => advance t ((List.range (rowsEff r (fieldAt b 4 2) (fieldAt b 24 2))).foldl (fun s i => vopRow t b i s) s))

/-! ### MMA (R160 to R163, R169, R195, R196, R415) -/

/-- Values of block `bl` of a row, at most `n`. -/
def blockVals (f : Nat) (gs : List Granule) (bl n : Nat) : List Fl :=
  let v := fmtValues f
  let g := gs.getD (32 * bl / v) zeroGran
  (List.range n).map (fun i => sigOf f (codeAt f g (32 * bl % v + i)))

/-- Granule and block within it of block `bl` of a row. -/
def blockPlace (f : Nat) (gs : List Granule) (bl : Nat) : Granule × Nat :=
  (gs.getD (32 * bl / fmtValues f) zeroGran, 32 * bl % fmtValues f / 32)

/-- Product of two element values: none for a NaN, an infinity by its sign, or a multiple of 2⁻³². -/
inductive Term where
  | num (v : Int)
  | inf (neg : Bool)
  | nan

def mulTerm (a b : Fl) : Term :=
  match a, b with
  | .nan _ _, _ | _, .nan _ _ => .nan
  | .inf s, .inf t => .inf (s != t)
  | .inf s, .fin t m _ => if m = 0 then .nan else .inf (s != t)
  | .fin s m _, .inf t => if m = 0 then .nan else .inf (s != t)
  | .fin s m e, .fin t n f =>
    let k := e + f + 32
    let v : Int := if k ≥ 0 then (m * n * 2 ^ natOfInt k : Nat) else (m * n / 2 ^ natOfInt (-k) : Nat)
    .num (if s != t then -v else v)

/-- The contribution of one block: the exact sum rounded, or the IEEE result of products that are not finite (R162). -/
def blockSum (as ws : List Fl) (e : Int) : F32 :=
  let ts := as.zipWith mulTerm ws
  let isNanT := ts.any (fun t => match t with | .nan => true | _ => false)
  let pos := ts.any (fun t => match t with | .inf false => true | _ => false)
  let neg := ts.any (fun t => match t with | .inf true => true | _ => false)
  if isNanT || (pos && neg) then f32Nan 5 0 0
  else if pos then f32Inf false else if neg then f32Inf true
  else
    let v := ts.foldl (fun a t => match t with | .num x => a + x | _ => a) 0
    ofSigned v (e - 32)

/-- A scaled element value as F32 product term of the 16-bit class. -/
def prodF32 (a b : Fl) (e : Int) : F32 :=
  match a, b with
  | .nan _ _, _ | _, .nan _ _ => f32Nan 5 0 0
  | .inf s, .inf t => f32Inf (s != t)
  | .inf s, .fin t m _ => if m = 0 then f32Nan 5 0 0 else f32Inf (s != t)
  | .fin s m _, .inf t => if m = 0 then f32Nan 5 0 0 else f32Inf (s != t)
  | .fin s m k, .fin t n f => roundF32 (s != t) (m * n) (k + f + e)

/-- One element of C over the blocks of K (R162): the value, and whether it is poisoned. -/
def mmaBlocks (af wf kv : Nat) (ar wr : List Granule) : (n bl : Nat) → F32 → Bool → F32 × Bool
  | 0, _, c, p => (c, p)
  | n + 1, bl, c, p =>
    let (ag, ab) := blockPlace af ar bl
    let (wg, wb) := blockPlace wf wr bl
    if blockPoison af ag ab || blockPoison wf wg wb then mmaBlocks af wf kv ar wr n (bl + 1) c true
    else if blockZero af ag ab || blockZero wf wg wb then mmaBlocks af wf kv ar wr n (bl + 1) c p
    else
      let k := min 32 (kv - 32 * bl)
      let e := blockExp af ag ab + blockExp wf wg wb
      let as := blockVals af ar bl k
      let ws := blockVals wf wr bl k
      let c := if mmaClass af wf < 2 then addF32 c (blockSum as ws e)
        else (as.zipWith (fun a w => prodF32 a w e) ws).foldl addF32 c
      mmaBlocks af wf kv ar wr n (bl + 1) c p

/-- One row of C. -/
def mmaRow (t : Task) (b : List Byte) (af : Nat) (tile : Tile) (i : Nat) (s : State) : State :=
  let nv := fieldAt b 5 1
  let kv := fieldAt b 6 2
  let cin := bitOf (fieldAt b 1 1) 1
  let ar := (List.range (rowGrans af kv)).map (fun j => localGet s t.engine t.unit (fieldAt b 8 2 + i * fieldAt b 10 2 + j))
  let cAt := fieldAt b 12 2 + i * fieldAt b 14 2
  (List.range ((nv + 15) / 16)).foldl (fun s j =>
    let old := localGet s t.engine t.unit (cAt + j)
    let es := (List.range (min 16 (nv - 16 * j))).map (fun c =>
      mmaBlocks af tile.fmt kv ar (tile.cols.getD (16 * j + c) []) ((kv + 31) / 32) 0
        (if cin then f32At old c else 0) (cin && isPoison old))
    localPut t.engine t.unit (cAt + j) (putF32s old (es.map (·.1)) (es.any (·.2))) s) s

/-- Format errors of the blocks that an MMA reads of a row of `kv` values (R181). -/
def noteFormat (e : Engine) (q f kv a : Nat) (gs : List Granule) (s : State) : State :=
  (List.range ((kv + 31) / 32)).foldl (fun s bl =>
    let (g, b) := blockPlace f gs bl
    if formatError f g b then
      recordErr { blankErr 2 with engine := e.code, queue := q, addr := a + 64 * (32 * bl / fmtValues f), detail := b } s
    else s) s

/-- The unit is fenced and its task issued again on another (R106, R169, R199, R417). -/
def fenceUnit (t : Task) (s : State) : State :=
  let s := { s with eng := { s.eng with fenced := (t.engine, t.unit) :: s.eng.fenced } }
  let per := match t.engine with | .ge => 1600 | _ => 5120
  let s := recordErr { blankErr 5 with
    unitKind := (match t.engine with | .ge => 2 | _ => 1), unit := t.unit % per, engine := t.engine.code
    queue := t.queue, task := t.index, detail := t.unit } s
  settleDefect t.engine t.queue (updQueue t.engine t.queue (fun x => { x with
    reissue := x.reissue ++ [(t.index, t.rung, t.repeats)] }) (dropTask t.engine t.unit s))

/-- The weight tile of an MMA: held, fetched ahead, or fetched now (R163). -/
def takeTile (t : Task) (r : Run) (b : List Byte) (s : State) : Tile × State :=
  match t.tile, bitOf (fieldAt b 1 1) 0 with
  | some x, true => (x, s)
  | _, _ =>
    match t.ahead with
    | some (i, x) => if i = t.pc then (x, s) else fetchTile r t.rung b s
    | none => fetchTile r t.rung b s

/-- Format errors that an MMA meets: in a tile it has fetched, and in its rows of A (R181). -/
def noteFormats (t : Task) (r : Run) (b : List Byte) (tile : Tile) (rows : Nat) (s : State) : State :=
  let af := rungFmt t.rung (fieldAt b 2 1 % 16)
  let kv := fieldAt b 6 2
  let src := weightSource r t.rung (fieldAt b 2 1 / 16)
  let s := if bitOf (fieldAt b 1 1) 0 then s
    else tile.cols.zipIdx.foldl (fun s c => noteFormat t.engine t.queue tile.fmt kv (weightCol r b src c.2) c.1 s) s
  (List.range rows).foldl (fun s i =>
    let at_ := fieldAt b 8 2 + i * fieldAt b 10 2
    noteFormat t.engine t.queue af kv (localBase t.engine t.unit + 64 * at_)
      ((List.range (rowGrans af kv)).map (fun j => localGet s t.engine t.unit (at_ + j))) s) s

/-- MMA: from the bank it uses, the other then the one to be filled (R160 to R163); a repeated residue mismatch fences the unit. -/
def execMma (e : Engine) (unit : Nat) (mismatches : Nat) (s : State) : Answer :=
  .next (match dueInstr s e unit 5 with
    | none => s
    | some (t, r, b) =>
      match mmaDefect s t r b with
      | some d => tileFault t t.pc d s
      | none =>
        if 2 ≤ mismatches then fenceUnit t s
        else
          let rows := rowsEff r (fieldAt b 4 1) (fieldAt b 16 2)
          let (tile, s) := takeTile t r b s
          let s := noteFormats t r b tile rows s
          let s := (List.range rows).foldl (fun s i => mmaRow t b (rungFmt t.rung (fieldAt b 2 1 % 16)) tile i s) s
          advance t (setTask { t with
            tile := some tile, ahead := if bitOf (fieldAt b 1 1) 0 then t.ahead else none } s))

/-! ### Repetition (R197 to R202) -/

/-- The task has repeated: its class counts it once per frame, and may become sticky from the next tick. -/
def countRepeat (x : Queue) (cls rung : Nat) (first : Bool) (s : State) : State :=
  let s := bump 2 rung (guardScope x.ctx x.program cls) 1 s
  updProg x.ctx x.program (fun p => { p with classes := tabUpd p.classes cls (fun y =>
    let n := if first then y.repeats + 1 else y.repeats
    { y with repeats := n, topRung := max y.topRung rung
             armed := y.armed || (decide (y.stickyRepeats ≠ 0) && decide (y.stickyRepeats ≤ n)) }) }) s

/-- TASK_REPEAT: once the failed run's stores have reached memory, the task starts again at the next rung (R197, R198). -/
def execTaskRepeat (e : Engine) (unit : Nat) (s : State) : Answer :=
  .next (match taskAt s e unit with
    | none => s
    | some t =>
      match t.run, queueAt s e t.queue with
      | some r, some x =>
        match nextRung t r with
        | some n =>
          if t.failed ∧ storesWait s t = false then
            let s := countRepeat x (gdClass r.gd) n (decide (t.repeats = 0)) (countRun x r s)
            let s := updQueue e t.queue (fun x => { x with repeated := x.repeated.orElse (fun _ => some (gdClass r.gd)) }) s
            beginRun { t with repeats := t.repeats + 1 } r n s
          else s
        | none => s
      | _, _ => s)

/-! ### Bodies (R152) -/

/-- A TILE_RUN body with no command defect. -/
def tileBodyOk (c : Cmd) : Bool :=
  let p := c.body 32 8
  decide (p % 64 = 0) && inT1Store p 64 && [32, 40, 48, 56].all (fun o => decide (c.body o 8 < 2 ^ 42))

end Sys2Proof.Machine
end

