-- ==== Sys2Proof/Machine/Tier.lean ====
section
/-! DEFINITION. The Tier Engine: TCF, COPY, REPLICATE, prefetch schedules and transfers (file 12). -/
namespace Sys2Proof.Machine

/-! ### Movers and pieces (R287) -/

/-- Offsets of the pieces of a transfer of `n` granules: one group where it is coded, else what of the source lies in one
2,048-byte-aligned run. -/
def pieceOffsets (src n : Nat) (coded : Bool) : List Nat :=
  if coded then (List.range (n / 32)).map (2048 * ·)
  else (List.range ((src % 2048 + 64 * n + 2047) / 2048)).map (fun i => 2048 * i - src % 2048)

/-- The local mover of a piece: that of its source, or of its destination where the source is remote or the piece is coded;
by the piece's index where no stack holds that destination. -/
def localMover (s : State) (remote coded : Bool) (src dst : Nat) (far : Bool) (off index : Nat) : Nat :=
  if remote || coded then
    if !far && placeOf (dst + off) == .t1 then (stackPlace s (dst + off)).1 else index % 20
  else if placeOf (src + off) = .t1 then (stackPlace s (src + off)).1
  else 20 + (src + off - 0x20000000000) / 2 ^ 30

/-- The mover that serves a piece: its local mover where that is in the set and may perform it, else the lowest of the set
that may. Only movers 0 to 19 code. -/
def pieceMover (first last : Nat) (coded : Bool) (m : Nat) : Nat :=
  if first ≤ m ∧ m < last ∧ (!coded ∨ m < 20) then m else first

/-- The pieces of a transfer counted for the movers that serve them. -/
def servePieces (first last : Nat) (remote coded far : Bool) (src dst n : Nat) (s : State) : State :=
  let movers := (pieceOffsets src n coded).zipIdx.map (fun p =>
    pieceMover first last coded (localMover s remote coded src dst far p.1 p.2))
  { s with tally := { s.tally with pieces := movers.foldl (fun t m => tabSet t m (tabNat t m + 1)) s.tally.pieces } }

/-! ### Fields of the two commands (Table 5-5) -/

def FleosCmd.wSource (c : FleosCmd) : Nat := fieldAt c.desc 17 1
def FleosCmd.wLayer (c : FleosCmd) : Nat := fieldAt c.desc 18 2
/-- Layers named: one, or LAYER_COUNT of a WEIGHT_REPLACE. -/
def FleosCmd.wCount (c : FleosCmd) : Nat := if c.opcode = 6 then fieldAt c.desc 20 2 else 1
def FleosCmd.wSrc (c : FleosCmd) : Nat := fieldAt c.desc 24 8
def FleosCmd.wDest (c : FleosCmd) : Nat := fieldAt c.desc 32 8
def FleosCmd.wLen (c : FleosCmd) : Nat := fieldAt c.desc 40 8
def FleosCmd.wForward (c : FleosCmd) : Nat := fieldAt c.desc 48 8
/-- Pieces of 2 MiB (R315). -/
def FleosCmd.wPieces (c : FleosCmd) : Nat := (c.wLen + 2 ^ 21 - 1) / 2 ^ 21

/-! ### TCF (R299 to R304) -/

def gran72 (g : Granule) : List Byte := slice g.payload 0 64 ++ slice g.tags 0 8

/-- The bits of a 9-byte mask over 72 bytes, and the bytes it keeps. -/
def maskOf (bs : List Byte) : List Byte × List Byte :=
  ((List.range 9).map (fun m => BitVec.ofNat 8 ((List.range 8).foldl (fun a b =>
    if bs.getD (8 * m + b) 0 = 0 then a else a + 2 ^ b) 0)), bs.filter (fun b => decide (b ≠ 0)))

/-- The code of one granule: the shortest permitted, ties to the lower code (R300). -/
def tcfCode (prev : Option Granule) (g : Granule) : List Byte :=
  let bs := gran72 g
  if isPoison g then [4]
  else if bs.all (fun b => decide (b = 0)) then [0]
  else if prev = some g then [1]
  else
    let (m, kept) := maskOf bs
    if kept.length < 63 then [3] ++ m ++ kept else [2] ++ bs

def tcfStream : Option Granule → List Granule → List Byte
  | _, [] => []
  | p, g :: r => tcfCode p g ++ tcfStream (if isPoison g then none else some g) r

/-- A group coded: MODE and its stored granules (R300, R301). -/
def tcfEncode (gs : List Granule) : Nat × List Granule :=
  if gs.all (fun g => (gran72 g).all (fun b => decide (b = 0))) then (2, [])
  else
    let st := tcfStream none gs
    let ng := (st.length + 71) / 72
    if 32 ≤ ng then (0, gs) else (1, (List.range ng).map (fun i => fromHost72 (slice st (72 * i) 72)))

/-- Bytes put at the set bits of a mask. -/
def unmask : (m : List Bool) → List Byte → Option (List Byte × List Byte)
  | [], bs => some ([], bs)
  | true :: m, b :: bs => (unmask m bs).map (fun r => (b :: r.1, r.2))
  | true :: _, [] => none
  | false :: m, bs => (unmask m bs).map (fun r => (0 :: r.1, r.2))

/-- `n` granules of a stream; none at a decode error (R304). -/
def tcfRead : (n : Nat) → Option Granule → List Byte → Option (List Granule)
  | 0, _, bs => if bs.all (fun b => decide (b = 0)) then some [] else none
  | _ + 1, _, [] => none
  | n + 1, prev, c :: bs =>
    if c = 0 then (tcfRead n (some zeroGran) bs).map (zeroGran :: ·)
    else if c = 1 then
      match prev with
      | some g => (tcfRead n (some g) bs).map (g :: ·)
      | none => none
    else if c = 2 then
      if bs.length < 72 then none
      else let g := fromHost72 (bs.take 72); (tcfRead n (some g) (bs.drop 72)).map (g :: ·)
    else if c = 3 then
      if bs.length < 9 then none
      else
        match unmask ((bs.take 9).flatMap (fun b => (List.range 8).map (fun i => bitOf b.toNat i))) (bs.drop 9) with
        | some (x, rest) => let g := fromHost72 x; (tcfRead n (some g) rest).map (g :: ·)
        | none => none
    else if c = 4 then (tcfRead n none bs).map (poisonGran :: ·)
    else none

/-- GOFF, NG and MODE of an index entry. -/
def idxGoff (e : Nat) : Nat := bitsOf e 39 0
def idxNg (e : Nat) : Nat := bitsOf e 45 40
def idxMode (e : Nat) : Nat := bitsOf e 47 46

def idxOk (e : Nat) : Bool :=
  decide (e / 2 ^ 48 = 0)
  && decide (idxMode e = 0 ∧ idxNg e = 32 ∨ idxMode e = 1 ∧ 1 ≤ idxNg e ∧ idxNg e ≤ 31 ∨ idxMode e = 2 ∧ idxNg e = 0)

/-- A group decoded from its index entry and stored granules; none at an error. A poisoned stored granule of a compressed
group is an error too, since no reader converts poison into a value (R416). -/
def tcfDecode (e : Nat) (gs : List Granule) : Option (List Granule) :=
  if !idxOk e then none
  else if idxMode e = 0 then some gs
  else if idxMode e = 2 then some (List.replicate 32 zeroGran)
  else if gs.any isPoison then none
  else tcfRead 32 none (gs.flatMap gran72)

/-- Index entry `g` from index granules. -/
def idxEntry (idx : List Granule) (g : Nat) : Nat := fieldAt ((idx.getD (g / 8) zeroGran).payload) (g % 8 * 8) 8

/-- Groups of 32 granules. -/
def groupsOf (gs : List Granule) : List (List Granule) := chunksOf (gs.length / 32 + 1) 32 gs

/-- A packed image: index, then the groups in order (R302). -/
def packImage (gs : List Granule) : List Granule :=
  let enc := (groupsOf gs).map tcfEncode
  let n := (enc.length + 7) / 8
  let idx := (enc.foldl (fun (a : Nat × List Byte) e =>
    (a.1 + e.2.length, a.2 ++ natLe 8 ((if e.1 = 2 then 0 else a.1) + e.2.length * 2 ^ 40 + e.1 * 2 ^ 46))) (n, [])).2
  toGrans n idx ++ enc.flatMap (·.2)

/-- Scope of a context's Tier Engine counters (Table 23-8). -/
def tierScope (ctx : Nat) : Nat := ctx * 256 + 0xFF

/-- The counters of groups by MODE. -/
def countModes (ctx : Nat) (modes : List Nat) (s : State) : State := modes.foldl (fun s m => bump 7 (3 + m) (tierScope ctx) 1 s) s

/-- The groups of an image decoded from stored granules; a group in error is poisoned, with a record (R304). -/
def decodeImage (ctx addr : Nat) (ents : List (Nat × List Granule)) (s : State) : List Granule × State :=
  ents.zipIdx.foldl (fun (acc : List Granule × State) e =>
    match tcfDecode e.1.1 e.1.2 with
    | some gs => (acc.1 ++ gs, countModes ctx [idxMode e.1.1] acc.2)
    | none =>
      (acc.1 ++ List.replicate 32 poisonGran,
       recordErr { blankErr 12 with ctx, addr, detail := e.2 } (bump 7 6 (tierScope ctx) 1 acc.2))) ([], s)

/-! ### Extents and bodies (R290 to R293) -/

/-- A local address of a Tier Engine extent. -/
def localExtentOk (a n : Nat) : Bool := decide (a < 2 ^ 42) && decide (a % 64 = 0) && inT1Store a (64 * n)

/-- The module's own device number in a global address makes it local (R290, R378). -/
def resolveAddr (s : State) (isRemote : Bool) (a : Nat) : Bool × Nat :=
  if isRemote ∧ devField a = devOf s then (false, localField a) else (isRemote, a)

def disjoint (a n b m : Nat) : Bool := decide (a + n ≤ b) || decide (b + m ≤ a)

/-- Granules that an image of `n` granules may occupy. -/
def imageGrans (n : Nat) : Nat := (n / 32 + 7) / 8 + n

/-- The transfer defects of R290: SRC, DST, LENGTH in granules, the four flags. -/
def copyOk (s : State) (src dst len fl : Nat) (coder : Bool) : Bool :=
  let (sr, sa) := resolveAddr s (bitOf fl 0) src
  let (dr, da) := resolveAddr s (bitOf fl 1) dst
  let st := bitOf fl 2
  let dt := bitOf fl 3
  let sn := if st then (len / 32 + 7) / 8 else len
  decide (fl / 16 = 0) && decide (1 ≤ len ∧ len ≤ 268435456) && !(st && dt)
  && (!(st || dt) || (decide (len % 32 = 0) && coder))
  && decide (src % 64 = 0) && decide (dst % 64 = 0) && decide (src < 2 ^ 56) && decide (dst < 2 ^ 56)
  && (sr || localExtentOk sa sn) && (dr || localExtentOk da (if dt then imageGrans len else len))
  && (sr || dr || disjoint sa (64 * (if st then imageGrans len else len)) da (64 * (if dt then imageGrans len else len)))

/-- A mover of 0 to 19 in the core set. -/
def hasCoder (c : Cmd) : Bool := decide (c.coreFirst < 20)

def copyBodyOk (s : State) (c : Cmd) : Bool :=
  tasksOk c 1 && copyOk s (c.body 32 8) (c.body 40 8) (c.body 48 4) (c.body 52 1) (hasCoder c)
  && decide (leNat (slice c 53 11) = 0)

/-- The 20 destinations of a REPLICATE. -/
def replicaDests (s : State) (c : Cmd) : List Nat :=
  let t := peek s (c.body 40 8) 160
  (List.range 20).map (fun i => fieldAt t (8 * i) 8)

/-- The part of a REPLICATE's body rule that the list alone decides (R133). -/
def replicateBodyStatic (c : Cmd) : Bool :=
  let n := c.body 48 4
  tasksOk c 20 && decide (c.coreFirst = 0 ∧ c.coreCount = 20) && decide (1 ≤ n)
  && localExtentOk (c.body 32 8) n && decide (c.body 40 8 < 2 ^ 42) && inT1Store (c.body 40 8) 160
  && decide (leNat (slice c 52 12) = 0)

def replicateBodyOk (s : State) (c : Cmd) : Bool :=
  let n := c.body 48 4
  replicateBodyStatic c
  && (replicaDests s c).zipIdx.all (fun d => localExtentOk d.1 n && decide (d.1 + 64 * n ≤ 0x1E000000000)
      && (List.range n).all (fun i => (stackPlace s (d.1 + 64 * i)).1 == d.2))

def scheduleBodyOk (c : Cmd) : Bool :=
  tasksOk c 1 && decide (c.body 32 8 < 2 ^ 42) && decide (c.body 32 8 % 64 = 0) && inT1Store (c.body 32 8) 64
  && decide (c.body 40 1 = 1 ∨ c.body 40 1 = 2) && decide (leNat (slice c 41 23) = 0)

/-! ### Transfers (R288, R294) -/

/-- Loads of `n` granules of a remote extent into a transfer's buffer from an index on, 8 granules a request. -/
def loadRemote (id ctx : Nat) (gen : Bool) (addr : Nat) : (fuel n index : Nat) → State → State
  | 0, _, _, s => s
  | k + 1, n, index, s =>
    if n = 0 then s
    else
      let m := min 8 n
      let p := { blankPacket 1 (devOf s) (devField addr) with
        pflags := 1 + 4 * bitNat gen, ctx, len := m, addr := localField addr }
      loadRemote id ctx gen (addr + 64 * m) k (n - m) (index + m) (issue (.xfer id) (.loadBuf id index) p s)

/-- Granules stored to a remote extent, 8 a request. -/
def storeRemote (o : Owner) (ctx : Nat) (gen : Bool) (addr : Nat) : (fuel : Nat) → List Granule → State → State
  | 0, _, s => s
  | k + 1, gs, s =>
    if gs.isEmpty then s
    else
      let p := { blankPacket 3 (devOf s) (devField addr) with
        pflags := 1 + 4 * bitNat gen, ctx, len := (gs.take 8).length, addr := localField addr, granules := gs.take 8 }
      storeRemote o ctx gen (addr + 512) k (gs.drop 8) (issue o .write p s)

def xferAt (s : State) (id : Nat) : Option Xfer := s.fab.xfers.find? (fun x => x.id == id)

def updXfer (id : Nat) (g : Xfer → Xfer) (s : State) : State :=
  { s with fab := { s.fab with xfers := s.fab.xfers.map (fun x => if x.id = id then g x else x) } }

def dropXfer (id : Nat) (s : State) : State :=
  { s with fab := { s.fab with xfers := s.fab.xfers.filter (fun x => x.id != id) } }

def xferCtx (s : State) : XferUse → Nat
  | .sched c _ _ _ => c
  | .spill c _ _ _ => c
  | .ret c _ _ => c
  | .copy q => ((queueAt s .te q).map (·.ctx)).getD 0
  | .weight c => c

/-- A transfer made known, with its identifier. -/
def newXfer (use : XferUse) (src dst len : Nat) (srcTcf : Bool) (round : Nat) (gen here : Bool) (s : State) : Nat × State :=
  let id := s.fab.nextXfer
  (id, { s with fab := { s.fab with
    nextXfer := id + 1
    xfers := s.fab.xfers ++ [{ id, use, src, dst, len, srcTcf, round, buf := [], silent := false, failed := false, gen, late := false
                               here }] } })

/-- A fetched image that arrives poisoned: the slot is emptied at the next tick, with a record naming the expert (R273). -/
def noteFetch (ctx dst : Nat) (gs : List Granule) (s : State) : State :=
  if !gs.any isPoison then s
  else
    let hit := ((ctxAt s ctx).map (fun c => c.hotPools.flatMap (fun h => h.2.slots.zipIdx.filterMap (fun j =>
      if h.2.hotBase.any (fun b => decide (b + j.2 * h.2.partBytes + h.2.woff = dst)) then j.1.expert else none)))).getD []
    hit.foldl (fun s j => recordErr { blankErr 29 with ctx, addr := dst, detail := j } s) (emptyHot dst s)

/-- Where the granules of a transfer go: its destination, coded where a COPY asks for it. -/
def placeXfer (use : XferUse) (o : Owner) (dstRemote dstTcf gen : Bool) (dst : Nat) (gs : List Granule) (s : State) : State :=
  let c := xferCtx s use
  let out := if dstTcf then packImage gs else gs
  let s := if dstTcf then countModes c ((groupsOf gs).map (fun g => (tcfEncode g).1)) s else s
  if dstRemote then storeRemote o c gen dst (out.length + 1) out s else noteFetch c dst gs (putGrans dst out s)

/-- Local source granules of a transfer, decoded where it is a packed image. -/
def readLocal (ctx src len : Nat) (srcTcf : Bool) (s : State) : List Granule × State :=
  if srcTcf then
    let (idx, s) := loadGrans ((len / 32 + 7) / 8) src s
    let (ents, s) := (List.range (len / 32)).foldl (fun (acc : List (Nat × List Granule) × State) g =>
      let e := idxEntry idx g
      let (gs, s) := if idxOk e then loadGrans (idxNg e) (src + 64 * idxGoff e) acc.2 else ([], acc.2)
      (acc.1 ++ [(e, gs)], s)) ([], s)
    decodeImage ctx src ents s
  else loadGrans len src s

/-- A transfer from a remote source begins: the index first where it is a packed image. -/
def startRemote (use : XferUse) (gen : Bool) (src dst len : Nat) (srcTcf : Bool) (s : State) : State :=
  let (id, s) := newXfer use src dst len srcTcf (if srcTcf then 0 else 1) gen false s
  let n := if srcTcf then (len / 32 + 7) / 8 else len
  loadRemote id (xferCtx s use) gen src (n + 1) n 0 s

/-- Granules `i` to `i + n − 1` of a buffer. -/
def bufGrans (x : Xfer) (i n : Nat) : List Granule := (List.range n).map (fun j => (tabGet x.buf (i + j)).getD poisonGran)

/-- Key of stored granule `j` of group `g` in a buffer. -/
def groupKey (g j : Nat) : Nat := 2 ^ 30 + 32 * g + j

/-- The granules a remote transfer has fetched, decoded. -/
def fetchedGrans (x : Xfer) (s : State) : List Granule × State :=
  if x.srcTcf then
    let idx := bufGrans x 0 ((x.len / 32 + 7) / 8)
    decodeImage (xferCtx s x.use) x.src ((List.range (x.len / 32)).map (fun g =>
      (idxEntry idx g, bufGrans x (groupKey g 0) (if idxOk (idxEntry idx g) then idxNg (idxEntry idx g) else 0)))) s
  else (bufGrans x 0 x.len, s)

/-- The next round of a remote transfer whose requests are all answered. `finish` places the granules. -/
def advanceXfer (id : Nat) (place : Xfer → List Granule → State → State) (s : State) : State :=
  match xferAt s id with
  | none => s
  | some x =>
    if outstandingOf s (.xfer id) || decide (2 ≤ x.round) then s
    else if x.round = 0 then
      let idx := bufGrans x 0 ((x.len / 32 + 7) / 8)
      let c := xferCtx s x.use
      let s := updXfer id (fun y => { y with round := 1 }) s
      let s := (List.range (x.len / 32)).foldl (fun s g =>
        let e := idxEntry idx g
        if idxOk e then loadRemote id c x.gen (x.src + 64 * idxGoff e) 40 (idxNg e) (groupKey g 0) s else s) s
      if outstandingOf s (.xfer id) then s
      else
        let (gs, s) := fetchedGrans x s
        place x gs (updXfer id (fun y => { y with round := 2, buf := [] }) s)
    else
      let (gs, s) := fetchedGrans x s
      place x gs (updXfer id (fun y => { y with round := 2, buf := [] }) s)

/-! ### COPY, REPLICATE -/

def execCopy (q : Nat) (s : State) : Answer :=
  .next (match workHead s .te q 0x10 with
    | none => s
    | some (x, c) =>
      let fl := c.body 52 1
      let (sr, src) := resolveAddr s (bitOf fl 0) (c.body 32 8)
      let (dr, dst) := resolveAddr s (bitOf fl 1) (c.body 40 8)
      let len := c.body 48 4
      let s := servePieces c.coreFirst (c.lastUnit .te) sr (bitOf fl 2 || bitOf fl 3) dr src dst len
        (markWorked .te q (bump 7 1 (tierScope x.ctx) (64 * len) s))
      if sr then startRemote (.copy q) c.genFlag src dst len (bitOf fl 2) s
      else
        let (gs, s) := readLocal x.ctx src len (bitOf fl 2) s
        placeXfer (.copy q) (.queue .te q) dr (bitOf fl 3) c.genFlag dst gs s)

def execReplicate (q : Nat) (s : State) : Answer :=
  .next (match workHead s .te q 0x11 with
    | none => s
    | some (x, c) =>
      let len := c.body 48 4
      let (gs, s) := loadGrans len (c.body 32 8) (markWorked .te q (bump 7 2 (tierScope x.ctx) (20 * 64 * c.body 48 4) s))
      (replicaDests s c).zipIdx.foldl (fun s d => putGrans d.1 gs (servePieces d.2 (d.2 + 1) false false false (c.body 32 8) d.1 len s)) s)

/-! ### Prefetch schedules (R292 to R297) -/

def schedEntry (b : List Byte) (base : Nat) : SchedEntry :=
  let fl := fieldAt b 2 1
  { phase := fieldAt b 0 2, gen := bitOf fl 0, srcRemote := bitOf fl 1, srcTcf := bitOf fl 2, freeWait := bitOf fl 3
    lead := fieldAt b 3 1, startOff := fieldAt b 4 4, src := fieldAt b 8 8, dst := fieldAt b 16 8, length := fieldAt b 24 4
    readyEvent := base + fieldAt b 28 2, freeEvent := base + fieldAt b 30 2, freeCount := fieldAt b 32 2 }

/-- An entry with none of the defects of R293; `n` events are the program's. -/
def schedEntryOk (s : State) (c : Cmd) (period n : Nat) (b : List Byte) : Bool :=
  let e := schedEntry b 0
  decide (fieldAt b 2 1 / 16 = 0) && decide (e.lead ≤ 15) && decide (e.startOff < 2 ^ 24) && decide (leNat (slice b 34 30) = 0)
  && decide (e.phase < period) && decide (e.startOff < s.herd.period)
  && decide (e.readyEvent < n) && (if e.freeWait then decide (e.freeEvent < n) else decide (e.freeEvent = 0 ∧ e.freeCount = 0))
  && copyOk s e.src e.dst e.length (bitNat e.srcRemote + 4 * bitNat e.srcTcf) (hasCoder c)

/-- The table of a SCHEDULE bind: none where it has a defect. -/
def readSchedule (s : State) (c : Cmd) (p : Program) : Option Schedule :=
  let a := c.body 32 8
  let h := peek s a 64
  let n := fieldAt h 4 4
  let period := fieldAt h 2 2
  let bs := (List.range (min n 65536)).map (fun i => peek s (a + 64 + 64 * i) 64)
  let es := bs.map (fun b => schedEntry b p.eventBase)
  let ordered := (es.zip (es.drop 1)).all (fun (x, y) => decide (x.phase < y.phase ∨ x.phase = y.phase ∧ x.startOff ≤ y.startOff))
  if decide (fieldAt h 0 2 = 1) && decide (1 ≤ period ∧ period ≤ 4096) && decide (1 ≤ n ∧ n ≤ 65536)
      && decide (leNat (slice h 8 56) = 0) && inT1Store a (64 + 64 * n)
      && bs.all (schedEntryOk s c period p.eventCount) && ordered then
    some { period, entries := es, coreFirst := c.coreFirst, coreCount := c.coreCount, k0 := none, issued := [], prime := false
           held := [], filled := [] }
  else none

/-- Transfers of a program's schedule in flight signal nothing (R292, R296); so those of one that another replaces, which the
manual leaves open (log entry 74). -/
def silenceSchedule (ctx prog : Nat) (s : State) : State :=
  { s with fab := { s.fab with xfers := s.fab.xfers.map (fun x => match x.use with
    | .sched c p _ _ => if c = ctx ∧ p = prog then { x with silent := true } else x
    | _ => x) } }

def execSchedule (q : Nat) (s : State) : Answer :=
  .next (match workHead s .te q 0x12 with
    | none => s
    | some (x, c) =>
      match progAt s x.ctx x.program with
      | none => s
      | some p =>
        if c.body 40 1 = 2 then
          silenceSchedule x.ctx x.program (updProg x.ctx x.program (fun p => { p with schedule := none }) (markWorked .te q s))
        else
          match readSchedule s c p with
          | none => faultQueue .te q 9 s
          | some sc => silenceSchedule x.ctx x.program
              (updProg x.ctx x.program (fun p => { p with schedule := some sc }) (markWorked .te q s)))

/-- The program has a queue held by a stop request. -/
def progHolding (s : State) (p : Program) : Bool := (progQueues s p).any (fun x => x.state == 4)

/-- A layer that a WEIGHT_REPLACE has begun to rewrite and not yet rewritten to its end: layers are rewritten in ascending
order (log entry 74). -/
def rewritingLayer (layers : Sparse (List Extent)) (c : FleosCmd) (l : Nat) : Bool :=
  let upTo := (layers.filter (fun y => decide (c.wLayer ≤ y.1 ∧ y.1 ≤ l))).flatMap (fun y => y.2.map (·.length))
  decide (c.wLayer ≤ l ∧ l < c.wLayer + c.wCount) && c.note == 1 && decide (c.progress < c.wPieces)
  && decide (c.progress * 2 ^ 21 < upTo.sum)

/-- Part of an extent lies in a layer of the context that is being rewritten (R285). -/
def rewriting (s : State) (ctx a len : Nat) : Bool :=
  match ctxAt s ctx with
  | some k =>
    match (k.barrier.bind (·.cmd)).bind (cmdNo s) with
    | some c => k.layers.any (fun l => rewritingLayer k.layers c l.1 && l.2.any (fun x => !disjoint x.dest x.length a len))
    | none => false
  | none => false

def updSchedule (ctx prog : Nat) (g : Schedule → Schedule) (s : State) : State :=
  updProg ctx prog (fun p => { p with schedule := p.schedule.map g }) s

/-- A transfer held for a rewrite, counted once (R285). -/
def holdEntry (ctx prog i served : Nat) (s : State) : State :=
  match (progAt s ctx prog).bind (·.schedule) with
  | some sc =>
    if sc.held.contains (i, served) then s
    else bump 7 2 (ctx * 256 + prog) 1 (updSchedule ctx prog (fun sc => { sc with held := sc.held ++ [(i, served)] }) s)
  | none => s

/-- The transfer of an entry for a served frame starts; a copy that its destination holds is discarded (R283). -/
def startEntry (ctx prog i served : Nat) (e : SchedEntry) (s : State) : State :=
  let sc := (progAt s ctx prog).bind (·.schedule)
  let s := if ((sc.map (·.filled)).getD []).contains e.dst then bump 7 0 (tierScope ctx) 1 s else s
  let s := updSchedule ctx prog (fun sc =>
    { sc with issued := sc.issued ++ [(i, served)], filled := if sc.filled.contains e.dst then sc.filled else e.dst :: sc.filled }) s
  let s := bump 7 0 (ctx * 256 + prog) 1 s
  let (r, src) := resolveAddr s e.srcRemote e.src
  let first := (sc.map (·.coreFirst)).getD 0
  let count := (sc.map (·.coreCount)).getD 0
  let s := servePieces first (if count = 0 then 36 else first + count) r e.srcTcf false src e.dst e.length s
  if r then startRemote (.sched ctx prog i served) e.gen src e.dst e.length e.srcTcf s
  else
    let (gs, s) := readLocal ctx src e.length e.srcTcf s
    let s := putGrans e.dst gs s
    (newXfer (.sched ctx prog i served) src e.dst e.length e.srcTcf 2 e.gen true s).2

/-- START_OFF, or one microsecond before the period where the period no longer exceeds it (R297). -/
def startOffOf (s : State) (e : SchedEntry) : Nat := if e.startOff < s.herd.period then e.startOff else s.herd.period - 1000

/-- An entry of a bound schedule starts in its issue frame, at its time and under its FREE_EVENT (R294); held while its
source is being rewritten (R285). -/
def execScheduleIssue (ctx program entry : Nat) (s : State) : Answer :=
  .next (match progAt s ctx program with
    | none => s
    | some p =>
      match p.schedule with
      | none => s
      | some sc =>
        match sc.k0, sc.entries[entry]? with
        | some k0, some e =>
          let served := s.herd.frame + e.lead
          if inMode s .ready ∧ s.herd.inFrame ∧ !s.herd.diverged ∧ !s.pwr.stopped ∧ k0 ≤ served ∧ (served - k0) % sc.period = e.phase
              ∧ (entry, served) ∉ sc.issued ∧ !progHolding s p
              ∧ tickOf s.herd s.herd.frame + startOffOf s e ≤ s.herd.time
              ∧ (!e.freeWait ∨ eventReached s e.freeEvent e.freeCount) then
            if !e.srcRemote ∧ rewriting s ctx e.src (64 * e.length) then holdEntry ctx program entry served s
            else
              let s := if e.startOff < s.herd.period then s else bump 7 3 (ctx * 256 + program) 1 s
              startEntry ctx program entry served e s
          else s
        | _, _ => s)

/-- A schedule transfer is complete: its event in the frame it serves, at that frame's tick where it comes early, or none
and a late count (R295). -/
def execScheduleTransferDone (xfer : Nat) (s : State) : Answer :=
  .next (if s.pwr.stopped then s else match xferAt s xfer with
    | none => s
    | some x =>
      match x.use with
      | .sched ctx prog i served =>
        if x.round ≠ 2 then s
        else
          let ev := ((progAt s ctx prog).bind (·.schedule)).bind (fun sc => sc.entries[i]?)
          match ev with
          | none => dropXfer xfer s
          | some e =>
            if x.silent then dropXfer xfer s
            else if served < s.herd.frame ∨ !s.herd.inFrame then dropXfer xfer (bump 7 1 (ctx * 256 + prog) 1 s)
            else if served = s.herd.frame then dropXfer xfer (signalEvent e.readyEvent s)
            else updXfer xfer (fun y => { y with round := 3 }) s
      | _ => s)

end Sys2Proof.Machine
end

