-- ==== Sys2Proof/Machine/Kv.lean ====
section
/-! DEFINITION. KV pages: the pool, page tables, append, commit and seal, spill and return, gather, hand-over (file 10). -/
namespace Sys2Proof.Machine

/-! ### Geometry of the pool (R234, R235) -/

/-- Granules per key row and value row. -/
def Pool.gk (p : Pool) : Nat := rowGrans p.kfmt p.dh
def Pool.gv (p : Pool) : Nat := rowGrans p.vfmt p.dh

/-- EB. -/
def Pool.entryBytes (p : Pool) : Nat := 16 * (p.gk + p.gv) * 64

def Pool.partBytes (p : Pool) : Nat := ((p.layers * p.hkv + 19) / 20 * p.entryBytes + 2047) / 2048 * 2048

def Pool.pageBytes (p : Pool) : Nat := 20 * p.partBytes

/-- Base of an entry of a frame. -/
def Pool.entryAddr (p : Pool) (frame layer head : Nat) : Nat :=
  let e := layer * p.hkv + head
  p.frameBase.getD (e % 20) 0 + frame * p.partBytes + e / 20 * p.entryBytes

def Pool.keyAddr (p : Pool) (frame layer head row : Nat) : Nat := p.entryAddr frame layer head + row * p.gk * 64

def Pool.valueAddr (p : Pool) (frame layer head row : Nat) : Nat :=
  p.entryAddr frame layer head + 16 * p.gk * 64 + row * p.gv * 64

/-- Slots of the spill area of a context (R243). -/
def spillSlots (c : Context) (p : Pool) : Nat := c.t2Size / max 1 p.pageBytes

/-! ### Page tables (R236, R237) -/

/-- An 8-byte entry read through the peck path: its bytes, and whether the half that holds it is poisoned (R340, R413). -/
def peck (a : Nat) (s : State) : List Byte × Bool × State :=
  if placeOf a = .t1 then
    let g := pendingGran s a
    (slice g.payload (a % 64) 8, halfPoison g (a % 64 / 32), bump 10 2 (channelOf s a / 64) 1 s)
  else loadBytes a 8 s

/-- Granules read through the peck path, two halves each; a poisoned half poisons its granule (R250, R413). -/
def peckGrans : (n a : Nat) → State → List Granule × State
  | 0, _, s => ([], s)
  | n + 1, a, s =>
    let (g, s) := if placeOf a = .t1 then (pendingGran s a, bump 10 2 (channelOf s a / 64) 2 s) else loadGran a s
    let (r, s) := peckGrans n (a + 64) s
    ((if halfPoison g 0 || halfPoison g 1 then poisonGran else g) :: r, s)

/-- The leaf entry of a page: none yet, unreadable, or its address and value. -/
inductive PageRef where
  | absent
  | poison
  | entry (addr value : Nat)
deriving DecidableEq, Repr

def dirEntryAddr (p : Pool) (dir page : Nat) : Nat := p.tableBase + dir * 4096 + page / 512 * 8

def leafBase (p : Pool) (leaf : Nat) : Nat := p.tableBase + (p.dirSlots + leaf) * 4096

def pageAt (p : Pool) (dir page : Nat) (s : State) : PageRef × State :=
  let (d, bad, s) := peck (dirEntryAddr p dir page) s
  if bad then (.poison, s)
  else if bitOf (leNat d) 63 then
    let a := leafBase p (leNat d % 2 ^ 24) + page % 512 * 8
    let (e, bad, s) := peck a s
    (if bad then .poison else .entry a (leNat e), s)
  else (.absent, s)

/-- Fields of a leaf entry (Table 10-3). -/
def leafState (e : Nat) : Nat := e % 8
def leafTcf (e : Nat) : Bool := bitOf e 3
def leafFrame (e : Nat) : Nat := bitsOf e 31 8
def leafSlot (e : Nat) : Nat := bitsOf e 63 32

/-- A leaf entry. -/
def leafEntry (st : Nat) (tcf : Bool) (frame slot : Nat) : Nat :=
  st + 8 * bitNat tcf + 256 * (frame % 2 ^ 24) + 2 ^ 32 * (slot % 2 ^ 32)

def putLeaf (a e : Nat) (s : State) : State := putBytes a (natLe 8 e) s

/-- An unused 4 KiB table, every entry EMPTY. -/
def clearTable (a : Nat) (s : State) : State := putGrans a (List.replicate 64 zeroGran) s

/-! ### What is free (R234, R236, R240) -/

/-- The lowest number below `count` that is not used. -/
def lowestFree (used : List Nat) (count : Nat) : Option Nat :=
  ((List.range (used.length + 1)).find? (fun n => !used.contains n)).filter (fun n => decide (n < count))

def poolOf (s : State) (ctx : Nat) : Option Pool := (ctxAt s ctx).bind (·.pool)

/-- The pool changed, the count of frames in use (R255) kept. -/
def updPool (ctx : Nat) (g : Pool → Pool) (s : State) : State :=
  let s := updCtx ctx (fun c => { c with pool := c.pool.map g }) s
  setCounter 5 0 ctx (((poolOf s ctx).map (fun p => p.usedFrames.length)).getD 0) s

def freeFrame (ctx n : Nat) (s : State) : State :=
  updPool ctx (fun p => { p with usedFrames := p.usedFrames.filter (fun x => decide (x ≠ n)) }) s

def freeSpill (ctx n : Nat) (s : State) : State :=
  updPool ctx (fun p => { p with usedSpill := p.usedSpill.filter (fun x => decide (x ≠ n)) }) s

/-! ### Loss (R241) -/

/-- KV loss of a stream, once: the record with its cause; Fleos ends the stream at the next tick. -/
def loseKv (slot cause : Nat) (s : State) : State :=
  match streamAt s slot with
  | some x =>
    if x.kvLost then s
    else
      recordErr { blankErr 24 with ctx := x.ctx, stream := x.number, detail := cause }
        (bump 5 6 x.ctx 1 (updStream slot (fun x => { x with kvLost := true }) s))
  | none => s

/-! ### Membership of frames (R141, R242, R244) -/

/-- Slots of the streams in the batches of a context, in batch and slot order. -/
def batchSlots (bs : Sparse Batch) : List Nat :=
  bs.flatMap (fun b => b.2.streams.zipIdx.filterMap (fun n => if b.2.gone.contains n.2 then none else some (n.1 % 65536)))

/-- The lists of BATCH_SET commands due in the next frame. -/
def dueBatches (s : State) (ctx : Nat) : List (Nat × List Nat) :=
  s.due.filterMap (fun d => match d with
    | .batch cmd frame list =>
      match cmdNo s cmd with
      | some c => if c.ctx = ctx ∧ frame ≤ nextTick s then some (fieldAt c.desc 18 2, list) else none
      | none => none
    | _ => none)

/-- Members of the next frame, in batch and slot order. -/
def nextMembers (s : State) (ctx : Nat) : List Nat :=
  match ctxAt s ctx with
  | none => []
  | some c =>
    let due := dueBatches s ctx
    let moved := due.flatMap (fun d => d.2.map (· % 65536))
    (List.range 64).flatMap (fun b =>
      match due.find? (fun d => d.1 == b) with
      | some d => d.2.map (· % 65536)
      | none => (batchSlots (c.batches.filter (fun e => e.1 == b))).filter (fun n => !moved.contains n))

def membersNow (s : State) (ctx : Nat) : List Nat := ((ctxAt s ctx).map (fun c => batchSlots c.batches)).getD []

/-! ### Spill (R242, R243, R303, R488) -/

/-- Transfers of spilling pages of a context, in flight. -/
def spillingOf (s : State) (ctx : Nat) : Nat :=
  (s.fab.xfers.filter (fun x => match x.use with | .spill c _ _ _ => c == ctx | _ => false)).length

/-- The stream has a page RETURNING. -/
def returningOf (s : State) (ctx dir : Nat) : Bool :=
  s.fab.xfers.any (fun x => match x.use with | .ret c d _ => c == ctx && d == dir && !x.silent | _ => false)

/-- A poisoned page table of one of these streams is KV loss (R237). -/
def checkTables (ctx : Nat) (slots : List Nat) (s : State) : State :=
  match poolOf s ctx with
  | none => s
  | some p => slots.foldl (fun s slot =>
      match streamAt s slot with
      | some x =>
        match x.dirSlot with
        | some d => if (List.range ((x.kvLen + 15) / 16)).any (fun n => (pageAt p d n s).1 == .poison) then loseKv slot 4 s else s
        | none => s
      | none => s) s

/-- Slots of the streams of a context. -/
def ctxSlots (s : State) (ctx : Nat) : List Nat := (s.streams.filter (fun e => e.2.ctx == ctx)).map (·.1)

/-- Pages that may be spilled, in order: stream slot, page, and the leaf entry's address and value. -/
def spillCandidates (ctx : Nat) (p : Pool) (s : State) : List (Nat × Nat × Nat × Nat) :=
  let pinned := membersNow s ctx ++ nextMembers s ctx
  let ss := (s.streams.filter (fun (e : Nat × Stream) => e.2.ctx == ctx && !pinned.contains e.1 && (match e.2.dirSlot with
    | some d => !returningOf s ctx d
    | none => false))).mergeSort (fun x y => decide (x.2.lastStep < y.2.lastStep ∨ x.2.lastStep = y.2.lastStep ∧ x.1 ≤ y.1))
  ss.flatMap (fun e => (List.range (e.2.kvLen / 16)).filterMap (fun n =>
    match (pageAt p (e.2.dirSlot.getD 0) n s).1 with
    | .entry a v => if leafState v = 2 ∨ leafState v = 3 then some (e.1, n, a, v) else none
    | _ => none))

/-- One part in slot form: its packed groups and its index; none where they do not fit. -/
def slotForm (gs : List Granule) : Option (List Granule × List Granule) :=
  let enc := (groupsOf gs).map tcfEncode
  let packed := enc.flatMap (·.2)
  let n := (enc.length + 7) / 8
  let idx := (enc.foldl (fun (a : Nat × List Byte) e =>
    (a.1 + e.2.length, a.2 ++ natLe 8 ((if e.1 = 2 then 0 else a.1) + e.2.length * 2 ^ 40 + e.1 * 2 ^ 46))) (0, [])).2
  if packed.length + n ≤ gs.length then some (packed, toGrans n idx) else none

/-- Granules written to a place that is local or remote. -/
def putPlace (o : Owner) (ctx : Nat) (remote : Bool) (a : Nat) (gs : List Granule) (s : State) : State :=
  if remote then storeRemote o ctx false a (gs.length + 1) gs s else putGrans a gs s

/-- The parts of a frame written to a spill slot: coded where the format asks and every part fits. The answer is TCF. -/
def writeParts (o : Owner) (ctx : Nat) (c : Context) (p : Pool) (frame slot : Nat) (s : State) : Bool × State :=
  let (remote, base) := resolveAddr s true (c.t2Base + slot * p.pageBytes)
  let n := p.partBytes / 64
  let (parts, s) := (List.range 20).foldl (fun (acc : List (List Granule) × State) i =>
    let (gs, s) := loadGrans n (p.frameBase.getD i 0 + frame * p.partBytes) acc.2
    (acc.1 ++ [gs], s)) ([], s)
  let coded := parts.map slotForm
  let tcf := c.spillFormat == 1 && coded.all Option.isSome
  let s := if c.spillFormat = 1 ∧ !tcf then bump 7 7 (tierScope ctx) 1 s else s
  (tcf, (List.range 20).foldl (fun s i =>
    let a := base + i * p.partBytes
    match tcf, coded.getD i none with
    | true, some (packed, idx) =>
      let s := countModes ctx ((groupsOf (parts.getD i [])).map (fun g => (tcfEncode g).1)) s
      putPlace o ctx remote (a + p.partBytes - 64 * idx.length) idx (putPlace o ctx remote a packed s)
    | _, _ => putPlace o ctx remote a (parts.getD i []) s) s)

/-- One candidate spilled: a SEALED_COPY page is freed at once, a SEALED one goes out to the lowest free slot. -/
def spillPage (ctx : Nat) (c : Context) (p : Pool) (x : Nat × Nat × Nat × Nat) (s : State) : State :=
  let (slot, page, a, v) := x
  if leafState v = 3 then
    bump 7 0 (tierScope ctx) 1 <| bump 5 3 ctx 1 (freeFrame ctx (leafFrame v) (putLeaf a (leafEntry 4 (leafTcf v) 0 (leafSlot v)) s))
  else
    match lowestFree p.usedSpill (spillSlots c p) with
    | none => s
    | some n =>
      let dir := ((streamAt s slot).bind (·.dirSlot)).getD 0
      let s := updPool ctx (fun p => { p with usedSpill := n :: p.usedSpill }) s
      let (id, s) := newXfer (.spill ctx dir page n) (leafFrame v) (c.t2Base + n * p.pageBytes) p.pageBytes false 2 false false s
      let (tcf, s) := writeParts (.xfer id) ctx c p (leafFrame v) n s
      putLeaf a (leafEntry 5 tcf (leafFrame v) n) s

/-- The context may spill at all. -/
def maySpill (c : Context) (p : Pool) : Bool := decide (c.spillMode ≠ 0) && decide (spillSlots c p ≠ 0)

/-- The frames in use, less those going out, are at or below a percentage of the pool. -/
def framesBelow (s : State) (ctx : Nat) (p : Pool) (pct : Nat) : Bool :=
  decide ((p.usedFrames.length - spillingOf s ctx) * 100 ≤ pct * p.frameCount)

/-- Pages spilled until the frames in use, less those going out, fall to HIGH_PCT − 5 per cent. -/
def spillDown (ctx : Nat) : (fuel : Nat) → State → State
  | 0, s => s
  | k + 1, s =>
    match ctxAt s ctx with
    | none => s
    | some c =>
      match c.pool with
      | none => s
      | some p =>
        if framesBelow s ctx p (c.highPct - 5) then s
        else
          match spillCandidates ctx p s with
          | [] => s
          | x :: _ =>
            if leafState x.2.2.2 = 2 ∧ (lowestFree p.usedSpill (spillSlots c p)).isNone then s
            else spillDown ctx k (spillPage ctx c p x s)

/-- The spill of a context begun or gone on with, and whether it is to go on later: it lasts until the frames in use are at
or below HIGH_PCT − 5 per cent (R242). -/
def spillRun (ctx : Nat) (c : Context) (p : Pool) (s : State) : State :=
  let s := spillDown ctx (p.usedFrames.length + 1) (checkTables ctx (ctxSlots s ctx) s)
  updPool ctx (fun q => { q with spillRun := !framesBelow s ctx q (c.highPct - 5) }) s

/-- KV_SPILL: background spill where the frames in use exceed HIGH_PCT per cent, or one begun before goes on. -/
def execKvSpill (ctx : Nat) (s : State) : Answer :=
  .next (if s.pwr.stopped then s else match ctxAt s ctx with
    | none => s
    | some c =>
      match c.pool with
      | none => s
      | some p =>
        if maySpill c p && (p.spillRun || decide (c.highPct * p.frameCount < p.usedFrames.length * 100)) then spillRun ctx c p s
        else s)

/-! ### Return (R244 to R246) -/

/-- Key of granule `i` of part `p` in the buffer of a return. -/
def partKey (part i : Nat) : Nat := part * 2 ^ 40 + i

/-- Granules `i` to `i + n − 1` of a part asked for, or read where T2 is local. -/
def fetchPart (id ctx : Nat) (remote gen : Bool) (base part i n : Nat) (p : Pool) (s : State) : State :=
  let a := base + part * p.partBytes + 64 * i
  if remote then loadRemote id ctx gen a (n + 1) n (partKey part i) s
  else
    let (gs, s) := loadGrans n a s
    updXfer id (fun x => { x with buf := gs.zipIdx.foldl (fun b g => tabSet b (partKey part (i + g.2)) g.1) x.buf }) s

/-- Index granules of a part of `n` granules. -/
def partIndex (n : Nat) : Nat := (n / 32 + 7) / 8

/-- Granules of a part in a buffer, one group entry a time. -/
def partEntries (x : Xfer) (part n : Nat) : List (Nat × List Granule) :=
  let ig := partIndex n
  let idx := (List.range ig).map (fun i => (tabGet x.buf (partKey part (n - ig + i))).getD poisonGran)
  (List.range (n / 32)).map (fun g =>
    let e := idxEntry idx g
    (e, (List.range (if idxOk e then idxNg e else 0)).map (fun j =>
      (tabGet x.buf (partKey part (idxGoff e + j))).getD poisonGran)))

/-- The groups that the index of a return names are fetched. -/
def fetchGroups (id ctx : Nat) (p : Pool) (s : State) : State :=
  match xferAt s id with
  | none => s
  | some x =>
    let n := p.partBytes / 64
    let (remote, base) := resolveAddr s true x.src
    (List.range 20).foldl (fun s part =>
      (partEntries x part n).foldl (fun s e =>
        if idxOk e.1 then fetchPart id ctx remote x.gen base part (idxGoff e.1) (idxNg e.1) p s else s) s) s

/-- The next round of a return whose requests are all answered. -/
def advanceReturn (id : Nat) (s : State) : State :=
  match xferAt s id with
  | none => s
  | some x =>
    match x.use with
    | .ret ctx _ _ =>
      match poolOf s ctx with
      | none => s
      | some p =>
        if outstandingOf s (.xfer id) || decide (2 ≤ x.round) then s
        else if x.round = 0 then
          let s := fetchGroups id ctx p (updXfer id (fun y => { y with round := 1 }) s)
          if outstandingOf s (.xfer id) then s else updXfer id (fun y => { y with round := 2 }) s
        else updXfer id (fun y => { y with round := 2 }) s
    | _ => s

/-- A frame taken for a return or an append: the lowest free one; none with a spill begun or a page freed for it. -/
inductive Frame where
  | got (n : Nat)
  | wait
  | loss (cause : Nat)
deriving DecidableEq, Repr

def takeFrame (ctx : Nat) : (fuel : Nat) → State → Frame × State
  | 0, s => (.wait, s)
  | k + 1, s =>
    match ctxAt s ctx with
    | none => (.loss 1, s)
    | some c =>
      match c.pool with
      | none => (.loss 1, s)
      | some p =>
        match lowestFree p.usedFrames p.frameCount with
        | some n => (.got n, updPool ctx (fun p => { p with usedFrames := n :: p.usedFrames }) s)
        | none =>
          if !maySpill c p then (.loss 1, s)
          else if spillingOf s ctx ≠ 0 then (.wait, s)
          else
            let s := checkTables ctx (ctxSlots s ctx) s
            match spillCandidates ctx p s with
            | [] => (.loss 1, s)
            | x :: _ =>
              if leafState x.2.2.2 = 2 ∧ (lowestFree p.usedSpill (spillSlots c p)).isNone then (.loss 2, s)
              else takeFrame ctx k (spillPage ctx c p x s)

/-- A return begins, where a frame is to be had. -/
def startReturn (ctx dir page : Nat) (gen : Bool) (s : State) : State :=
  match ctxAt s ctx with
  | none => s
  | some c =>
    match c.pool with
    | none => s
    | some p =>
      match pageAt p dir page s with
      | (.entry a v, s) =>
        if leafState v ≠ 4 then s
        else
          match takeFrame ctx 2 s with
          | (.got f, s) =>
            let n := p.partBytes / 64
            let src := c.t2Base + leafSlot v * p.pageBytes
            let s := putLeaf a (leafEntry 6 (leafTcf v) f (leafSlot v)) s
            let (id, s) := newXfer (.ret ctx dir page) src f (leafSlot v) (leafTcf v) (if leafTcf v then 0 else 1) gen false s
            let (remote, base) := resolveAddr s true src
            let s := (List.range 20).foldl (fun s part =>
              if leafTcf v then fetchPart id ctx remote gen base part (n - partIndex n) (partIndex n) p s
              else fetchPart id ctx remote gen base part 0 n p s) s
            advanceReturn id (advanceReturn id s)
          | (_, s) => s
      | (_, s) => s

/-- SPILLED pages of the streams of the next frame return, in batch, slot and page order. The membership of frame k + 1 is
that of the LOOKAHEAD frames as well, so every page is one to return for frame k + 1 (R244). -/
def tickReturns (ctx : Nat) (s : State) : State :=
  (nextMembers s ctx).foldl (fun s slot =>
    match streamAt s slot with
    | some x =>
      match x.dirSlot, poolOf s ctx with
      | some d, some p => (List.range ((x.kvLen + 15) / 16)).foldl (fun s n =>
          match (pageAt p d n s).1 with
          | .entry _ v => if leafState v = 4 then startReturn ctx d n true s else s
          | _ => s) s
      | _, _ => s
    | none => s) (checkTables ctx (nextMembers s ctx) s)

/-- The stream slot whose directory it is. -/
def dirOwner (s : State) (ctx dir : Nat) : Option Nat :=
  (s.streams.find? (fun e => e.2.ctx == ctx && e.2.dirSlot == some dir)).map (·.1)

/-- A table granule met poisoned where a transfer ends: KV loss of its stream (R237). -/
def lostTable (ctx dir : Nat) (r : PageRef) (s : State) : State :=
  if r = .poison then
    match dirOwner s ctx dir with
    | some slot => loseKv slot 4 s
    | none => s
  else s

def kvXfer (s : State) (u : XferUse → Bool) : Option Xfer := s.fab.xfers.find? (fun x => u x.use)

/-- The transfer spills, or returns, a page. -/
def spillOf (ctx dir page : Nat) : XferUse → Bool
  | .spill c d n _ => c == ctx && d == dir && n == page
  | _ => false

def returnOf (ctx dir page : Nat) : XferUse → Bool
  | .ret c d n => c == ctx && d == dir && n == page
  | _ => false

/-- The parts of a return, decoded. -/
def returnedParts (ctx : Nat) (x : Xfer) (n : Nat) (s : State) : List (List Granule) × State :=
  (List.range 20).foldl (fun (acc : List (List Granule) × State) part =>
    if x.srcTcf then
      let (gs, s) := decodeImage ctx x.src (partEntries x part n) acc.2
      (acc.1 ++ [gs], s)
    else (acc.1 ++ [(List.range n).map (fun i => (tabGet x.buf (partKey part i)).getD poisonGran)], acc.2)) ([], s)

/-- KV_RETURN_DONE: the parts are placed and the page is SEALED_COPY; a failed or poisoned return is KV loss (R244, R246).
In a return, `silent` says that the stream has ended and `failed` that a request failed. -/
def execKvReturnDone (ctx dirSlot page : Nat) (s : State) : Answer :=
  .next (if s.pwr.stopped then s else match kvXfer s (returnOf ctx dirSlot page) with
    | none => s
    | some x =>
      match poolOf s ctx with
      | none => s
      | some p =>
        if x.round ≠ 2 then s
        else if x.silent then freeSpill ctx x.len (freeFrame ctx x.dst (dropXfer x.id s))
        else
          match pageAt p dirSlot page s with
          | (.entry a v, s) =>
            let (parts, s) := returnedParts ctx x (p.partBytes / 64) (dropXfer x.id s)
            if x.failed || parts.any (fun gs => gs.any isPoison) then
              let s := freeFrame ctx x.dst (putLeaf a (leafEntry 4 (leafTcf v) 0 (leafSlot v)) s)
              match dirOwner s ctx dirSlot with
              | some slot => loseKv slot (if x.failed then 3 else 4) s
              | none => s
            else
              let s := parts.zipIdx.foldl (fun s g => putGrans (p.frameBase.getD g.2 0 + x.dst * p.partBytes) g.1 s) s
              bump 5 4 ctx 1 (putLeaf a (leafEntry 3 (leafTcf v) x.dst (leafSlot v)) s)
          | (r, s) => freeFrame ctx x.dst (dropXfer x.id (lostTable ctx dirSlot r s)))

/-! ### A stream's pages: freed, committed (R239, R240, R246) -/

/-- Every page, table and slot of a stream freed; pages in flight when their transfer ends. -/
def freeKv (slot : Nat) (s : State) : State :=
  match streamAt s slot with
  | none => s
  | some x =>
    match x.dirSlot, poolOf s x.ctx with
    | some d, some p =>
      let pages := (max x.kvLen x.next + 15) / 16 + 2
      let s := (List.range pages).foldl (fun s n =>
        match (pageAt p d n s).1 with
        | .entry _ v =>
          let s := if leafState v = 1 ∨ leafState v = 2 ∨ leafState v = 3 then freeFrame x.ctx (leafFrame v) s else s
          if leafState v = 3 ∨ leafState v = 4 then freeSpill x.ctx (leafSlot v) s else s
        | _ => s) s
      let leaves := (List.range (pages / 512 + 1)).filterMap (fun i =>
        let e := fieldAt (peek s (dirEntryAddr p d (512 * i)) 8) 0 8
        if bitOf e 63 then some (e % 2 ^ 24) else none)
      let s := { s with fab := { s.fab with xfers := s.fab.xfers.map (fun y => match y.use with
        | .spill c e _ _ => if c = x.ctx ∧ e = d then { y with silent := true } else y
        | .ret c e _ => if c = x.ctx ∧ e = d then { y with silent := true } else y
        | _ => y) } }
      let s := updPool x.ctx (fun p => { p with
        usedLeaves := p.usedLeaves.filter (fun n => !leaves.contains n)
        usedDirs := p.usedDirs.filter (fun n => decide (n ≠ d)) }) s
      updStream slot (fun x => { x with dirSlot := none, kvLen := 0 }) s
    | _, _ => updStream slot (fun x => { x with kvLen := 0 }) s

/-- The committed length becomes `len`; pages whose 16 positions all lie below it become SEALED. A stream without pages holds
no entry and has no committed length. -/
def commitKv (slot len : Nat) (s : State) : State :=
  match streamAt s slot with
  | none => s
  | some x =>
    match x.dirSlot, poolOf s x.ctx with
    | some d, some p =>
      let s := (List.range (len / 16 - x.kvLen / 16)).foldl (fun s i =>
          let n := x.kvLen / 16 + i
          match pageAt p d n s with
          | (.entry a v, s) =>
            if leafState v = 1 then bump 5 1 x.ctx 1 (putLeaf a (leafEntry 2 false (leafFrame v) 0) s) else s
          | (.poison, s) => loseKv slot 4 s
          | (.absent, s) => s) s
      updStream slot (fun x => { x with kvLen := len }) s
    | _, _ => s

/-! ### Step tables (R217, R218) -/

/-- One row of a step table, read. -/
structure TableRow where
  index : Nat
  poison : Bool
  token : Nat
  pos : Nat
  stream : Nat
  valid : Bool
  row : Nat
  slot : Nat
deriving DecidableEq, Repr

/-- The granule before a step table, that of its row count; before address 0 it lies in no memory (R16, R217). -/
def tableHead (a : Nat) : Nat := if 64 ≤ a then a - 64 else a + (2 ^ 64 - 64)

/-- The row count of a step table, at most 1,024 slots of 9 rows. -/
def tableCount (s : State) (a : Nat) : Nat := min 9216 (fieldAt (peek s (tableHead a) 4) 0 4)

def tableRow (s : State) (a i : Nat) : TableRow :=
  let b := peek s (a + 16 * i) 16
  { index := i, poison := (loadBytes (a + 16 * i) 16 s).2.1, token := fieldAt b 0 4, pos := fieldAt b 4 4 % 2 ^ 22
    stream := fieldAt b 8 4, valid := bitOf (fieldAt b 12 1) 0, row := fieldAt b 13 1, slot := fieldAt b 14 2 }

def tableRows (s : State) (a : Nat) : List TableRow := (List.range (tableCount s a)).map (tableRow s a)

/-- A step table's place: a multiple of 64 in T1 or the Store (Table 9-4). -/
def tableAddrOk (a : Nat) : Bool := decide (a % 64 = 0) && inT1Store a 64

/-! ### KV_POOL_INIT (R234) -/

def kvFmt (f : Nat) : Bool := f == 2 || f == 4 || f == 10

def readPool (d : List Byte) : Pool :=
  { kfmt := fieldAt d 2 1, vfmt := fieldAt d 3 1, layers := fieldAt d 4 2, hkv := fieldAt d 6 1, dh := fieldAt d 8 2
    frameCount := fieldAt d 12 4, leafCount := fieldAt d 16 4, dirSlots := fieldAt d 20 4, tableBase := fieldAt d 24 8
    layoutId := fieldAt d 32 8, frameBase := (List.range 20).map (fun i => fieldAt d (64 + 8 * i) 8)
    usedFrames := [], usedLeaves := [], usedDirs := [], usedSpill := [], spillRun := false }

/-- The descriptor has none of the defects of R234. -/
def poolOk (s : State) (ctx : Nat) (d : List Byte) : Bool :=
  let p := readPool d
  decide (fieldAt d 0 2 = 1) && kvFmt p.kfmt && kvFmt p.vfmt && decide (1 ≤ p.layers ∧ p.layers ≤ 4096)
  && decide (1 ≤ p.hkv ∧ p.hkv ≤ 64) && decide (fieldAt d 7 1 = 0) && decide (32 ≤ p.dh ∧ p.dh ≤ 512 ∧ p.dh % 32 = 0)
  && decide (fieldAt d 10 2 = 0) && decide (1 ≤ p.frameCount ∧ p.frameCount ≤ 16777216)
  && decide (1 ≤ p.leafCount ∧ p.leafCount ≤ 16777216) && decide (1 ≤ p.dirSlots ∧ p.dirSlots ≤ 65536)
  && decide (p.tableBase % 4096 = 0) && decide (leNat (slice d 40 24) = 0)
  && (regionOf s ctx p.tableBase ((p.dirSlots + p.leafCount) * 4096)).isSome
  && p.frameBase.zipIdx.all (fun b => decide (b.1 % 2048 = 0)
      && (regionOf s ctx b.1 (p.frameCount * p.partBytes)).isSome
      && decide (b.1 + p.frameCount * p.partBytes ≤ 0x1E000000000)
      && (List.range (p.frameCount * p.partBytes / 2048)).all (fun i => (stackPlace s (b.1 + 2048 * i)).1 == b.2))
  && s.streams.all (fun e => decide (e.2.ctx ≠ ctx) || e.2.dirSlot.isNone)

/-- The part of a KV_POOL_INIT's body rule that the list alone decides (R133). -/
def poolBodyStatic (c : Cmd) : Bool := tasksOk c 1 && decide (leNat (slice c 40 24) = 0)

def poolBodyOk (s : State) (ctx : Nat) (c : Cmd) : Bool :=
  let a := c.body 32 8
  poolBodyStatic c && ((loadBytes a 224 s).2.1 || poolOk s ctx (peek s a 224))

/-- A structure read by Fleos for a command is poisoned: the queue faults, and the command that started it completes
POISONED with the record's number (Table 18-3). -/
def faultPoison (e : Engine) (q : Nat) (s : State) : State :=
  match queueAt s e q with
  | none => s
  | some x =>
    let s := setQueue e q { x with state := 5, stopReq := none } s
    let s := recordErr { blankErr 3 with ctx := x.ctx, engine := e.code, queue := q, listIndex := x.head, detail := 9 } s
    finishStarts x.ctx x.program 6 (lastErrOf s 3) s

def execKvPoolInit (q : Nat) (s : State) : Answer :=
  .next (match workHead s .te q 0x40 with
    | none => s
    | some (x, c) =>
      let (d, bad, s) := loadBytes (c.body 32 8) 224 s
      if bad then faultPoison .te q s
      else if !poolOk s x.ctx d then faultQueue .te q 9 s
      else updPool x.ctx id (updCtx x.ctx (fun k => { k with pool := some (readPool d) }) (markWorked .te q s)))

/-! ### KV_APPEND (R238, R240, R241) -/

/-- A page of a stream made ready to be written: its directory, its leaf table, its frame. -/
def homePage (ctx slot page : Nat) (s : State) : Frame × State :=
  match poolOf s ctx, streamAt s slot with
  | some p, some x =>
    let (d, s) := match x.dirSlot with
      | some d => (some d, s)
      | none =>
        match lowestFree p.usedDirs p.dirSlots with
        | some d =>
          (some d, clearTable (p.tableBase + d * 4096) (updStream slot (fun x => { x with dirSlot := some d })
            (updPool ctx (fun p => { p with usedDirs := d :: p.usedDirs }) s)))
        | none => (none, s)
    match d with
    | none => (.loss 1, s)
    | some d =>
      let (r, s) := match pageAt p d page s with
        | (.absent, s) =>
          match lowestFree p.usedLeaves p.leafCount with
          | some l =>
            let s := updPool ctx (fun p => { p with usedLeaves := l :: p.usedLeaves }) s
            let s := putBytes (dirEntryAddr p d page) (natLe 8 (l + 2 ^ 63)) (clearTable (leafBase p l) s)
            (some (PageRef.entry (leafBase p l + page % 512 * 8) 0), s)
          | none => (none, s)
        | (r, s) => (some r, s)
      match r with
      | none => (.loss 1, s)
      | some (.entry a v) =>
        if leafState v = 0 then
          match takeFrame ctx 2 s with
          | (.got f, s) => (.got f, putLeaf a (leafEntry 1 false f 0) s)
          | r => r
        else if leafState v = 1 then (.got (leafFrame v), s)
        else (.loss 1, s)
      | some _ => (.loss 4, s)
  | _, _ => (.loss 1, s)

/-- The entries of one row written: for each head the key row and the value row. -/
def appendRow (p : Pool) (layer src frame : Nat) (slot pos : Nat) (s : State) : State :=
  let (bad, s) := (List.range p.hkv).foldl (fun (acc : Bool × State) h =>
    let (ks, s) := loadGrans p.gk (src + 64 * h * (p.gk + p.gv)) acc.2
    let (vs, s) := loadGrans p.gv (src + 64 * (h * (p.gk + p.gv) + p.gk)) s
    (acc.1 || (ks ++ vs).any isPoison,
     putGrans (p.valueAddr frame layer h (pos % 16)) vs (putGrans (p.keyAddr frame layer h (pos % 16)) ks s))) (false, s)
  if bad then updStream slot (fun x => { x with kvPoison := true }) s else s

/-- Rows of each slot of a step table, in slot order. -/
def slotRows (rs : List TableRow) : List (Nat × List TableRow) :=
  (List.range (rs.foldl (fun n r => max n (r.slot + 1)) 0)).map (fun t => (t, rs.filter (fun r => r.slot == t)))

/-- Every page that rows need made ready, in order, up to the first that is not. -/
def homePages (ctx slot : Nat) : (pages : List Nat) → State → Frame × State
  | [], s => (.got 0, s)
  | n :: r, s =>
    match homePage ctx slot n s with
    | (.got _, s) => homePages ctx slot r s
    | x => x

/-- The rows of one slot written: their pages first, so that a loss writes nothing for the slot (R241). The answer says
whether a frame is awaited. -/
def appendSlot (ctx : Nat) (p : Pool) (layer src rstr : Nat) (rs : List TableRow) (s : State) : Bool × State :=
  let rs := rs.filter (fun r => r.valid && !r.poison)
  match rs.head?.bind (fun r => streamNo s r.stream) with
  | none => (false, s)
  | some x =>
    let slot := x.number % 65536
    if x.kvLost ∨ x.ctx ≠ ctx then (false, s)
    else
      match homePages ctx slot (rs.map (·.pos / 16)) s with
      | (.wait, s) => (true, s)
      | (.loss c, s) => (false, loseKv slot c s)
      | (.got _, s) => (false, rs.foldl (fun s r =>
          match homePage ctx slot (r.pos / 16) s with
          | (.got f, s) => appendRow p layer (src + 64 * rstr * r.index) f slot r.pos s
          | (_, s) => s) s)

/-- The rows of a KV_APPEND in slot order; a slot whose frame is awaited holds up those after it. -/
def appendRows (ctx : Nat) (p : Pool) (layer src rstr : Nat) : List (Nat × List TableRow) → State → Bool × State
  | [], s => (false, s)
  | t :: r, s =>
    match appendSlot ctx p layer src rstr t.2 s with
    | (true, s) => (true, s)
    | (false, s) => appendRows ctx p layer src rstr r s

/-- The part of a KV_APPEND's body rule that the list alone decides (R133). -/
def appendBodyStatic (c : Cmd) : Bool :=
  tasksOk c 20 && decide (c.body 34 2 = 0) && decide (c.body 40 8 % 64 = 0) && inT1Store (c.body 40 8) 64
  && tableAddrOk (c.body 48 8) && decide (leNat (slice c 56 8) = 0)

def appendBodyOk (s : State) (ctx : Nat) (c : Cmd) : Bool :=
  appendBodyStatic c && (match poolOf s ctx with
  | none => false
  | some p => decide (c.body 32 2 < p.layers) && decide (p.hkv * (p.gk + p.gv) ≤ c.body 36 4))

/-- What KV_APPEND does with its pool: a row that waits for a frame is tried again at the next run of the command. -/
def appendEffect (q : Nat) (x : Queue) (c : Cmd) (p : Pool) (s : State) : State :=
  match appendRows x.ctx p (c.body 32 2) (c.body 40 8) (c.body 36 4) (slotRows (tableRows s (c.body 48 8))) s with
  | (true, s) => s
  | (false, s) => markWorked .te q s

/-- The KV command at work, with the pool of its context. -/
def withPool (q opcode : Nat) (s : State) (k : Queue → Cmd → Pool → State → State) : Answer :=
  .next (match workHead s .te q opcode with
    | none => s
    | some (x, c) =>
      match poolOf s x.ctx with
      | none => s
      | some p => k x c p s)

def execKvAppend (q : Nat) (s : State) : Answer := withPool q 0x41 s (appendEffect q)

/-! ### KV_GATHER (R247 to R250) -/

/-- DMAX of a step table: the rows of one slot, less one. -/
def tableDmax (rs : List TableRow) : Nat := (rs.filter (fun r => r.slot == 0)).length - 1

/-- Size of an image record (Table 10-6). -/
def recordBytes (p : Pool) (chunk dmax : Nat) : Nat :=
  64 * (chunk * p.gk + p.dh * ((chunk + 31) / 32) + (dmax + 1) * ((chunk + 15) / 16))

/-- The part of a KV_GATHER's body rule that the list alone decides (R133). -/
def gatherBodyStatic (c : Cmd) : Bool :=
  let chunk := c.body 36 2
  tasksOk c 20 && decide (1 ≤ c.body 35 1 ∧ c.body 35 1 ≤ 4) && decide (32 ≤ chunk ∧ chunk ≤ 4096 ∧ chunk % 32 = 0)
  && decide (1 ≤ c.body 38 1 ∧ c.body 38 1 ≤ 64) && decide (c.body 39 1 < 2) && decide (c.body 40 8 % 64 = 0)
  && inT1Store (c.body 40 8) 64 && decide (c.body 48 4 % 64 = 0) && decide (c.body 52 4 = 0) && tableAddrOk (c.body 56 8)

def gatherBodyOk (s : State) (ctx : Nat) (c : Cmd) : Bool :=
  gatherBodyStatic c && (match poolOf s ctx with
  | none => false
  | some p => decide (c.body 32 2 < p.layers) && decide (c.body 34 1 + c.body 35 1 ≤ p.hkv)
    && decide (recordBytes p (c.body 36 2) (tableDmax (tableRows s (c.body 56 8))) ≤ c.body 48 4))

/-- The last valid row's position, where a slot has a valid row. -/
def lastPos (rs : List TableRow) : Option Nat := ((rs.filter (·.valid)).getLast?).map (·.pos)

/-- Span start B of a slot (R248). -/
def spanStart (pmax cc chunk : Nat) : Nat := (pmax + 16) / 16 * 16 - cc * chunk

/-- The leaf entry of a page that is home. -/
def homeEntry (p : Pool) (dir page : Nat) (s : State) : Option Nat :=
  match (pageAt p dir page s).1 with
  | .entry _ v => if 1 ≤ leafState v ∧ leafState v ≤ 3 then some v else none
  | _ => none

/-- Granules of an entry's row: of a PARTIAL page through the peck path, of a sealed one by streaming reads (R250). -/
def readRow (v n a : Nat) (s : State) : List Granule × State :=
  if leafState v = 1 then peckGrans n a s else loadGrans n a s

/-- What the records of one slot are made from: its rows, its span start, its directory, and whether every operand is
poisoned. -/
structure Gather where
  rows : List TableRow
  start : Nat
  dir : Option Nat
  bad : Bool
deriving DecidableEq, Repr

/-- A position of the span is visible to a row: no position is where the slot has no valid row, and so no span (log entry
72). -/
def Gather.sees (g : Gather) (r : TableRow) (pos : Nat) : Bool :=
  (lastPos g.rows).isSome && decide (g.start ≤ pos) && decide (pos ≤ r.pos)

/-- Key and value rows of one position for one head; zeros where no row sees it or no entry is held (Table 10-6). Format
errors of the values are recorded (R181). -/
def gatherRow (p : Pool) (q layer head pos : Nat) (g : Gather) (s : State) : (List Granule × List (F32 × Bool)) × State :=
  match g.rows.any (fun r => g.sees r pos), g.dir.bind (fun d => homeEntry p d (pos / 16) s) with
  | true, some v =>
    let va := p.valueAddr (leafFrame v) layer head (pos % 16)
    let (ks, s) := readRow v p.gk (p.keyAddr (leafFrame v) layer head (pos % 16)) s
    let (vs, s) := readRow v p.gv va s
    ((ks, rowValues p.vfmt p.dh vs), noteFormat .te q p.vfmt p.dh va vs s)
  | _, _ => ((List.replicate p.gk zeroGran, List.replicate p.dh (0, false)), s)

/-- One granule of BIAS for a row: 16 positions from `first` on. -/
def biasGran (g : Gather) (r : Option TableRow) (first : Nat) : Granule :=
  { payload := (List.range 16).flatMap (fun i =>
      natLe 4 (if (r.map (fun r => g.sees r (first + i))).getD false then 0 else 0xFE800000))
    tags := List.replicate 8 0 }

/-- One image record: keys, transposed values, bias. -/
def imageRecord (p : Pool) (q layer head chunk dmax first : Nat) (g : Gather) (s : State) : List Granule × State :=
  if g.bad then (List.replicate (recordBytes p chunk dmax / 64) poisonGran, s)
  else
    let (rows, s) := (List.range chunk).foldl (fun (acc : List (List Granule × List (F32 × Bool)) × State) i =>
      let (r, s) := gatherRow p q layer head (first + i) g acc.2
      (acc.1 ++ [r], s)) ([], s)
    let vt := (List.range p.dh).flatMap (fun d => (List.range ((chunk + 31) / 32)).map (fun n =>
      toB16Gran ((List.range 32).map (fun i => ((rows.getD (32 * n + i) ([], [])).2).getD d (0, false)))))
    let bias := (List.range (dmax + 1)).flatMap (fun j => (List.range ((chunk + 15) / 16)).map (fun n =>
      biasGran g g.rows[j]? (first + 16 * n)))
    (rows.flatMap (·.1) ++ vt ++ bias, s)

/-- Pages from the span start of a slot to its last valid row's. -/
def spanPages (m cc chunk : Nat) : List Nat :=
  (List.range ((m + 16) / 16 - spanStart m cc chunk / 16)).map (fun i => spanStart m cc chunk / 16 + i)

/-- A gather waits for the return of a page: counted once, and generation class from now on (R245, R255). -/
def markLate (ctx dir page : Nat) (s : State) : State :=
  match kvXfer s (returnOf ctx dir page) with
  | some x => if x.late then s else bump 5 5 ctx 1 (updXfer x.id (fun y => { y with late := true, gen := true }) s)
  | none => s

/-- The stream of a slot's rows, where one is valid. -/
def rowsStream (s : State) (rs : List TableRow) : Option Stream := (rs.find? (·.valid)).bind (fun r => streamNo s r.stream)

/-- Pages that a gather needs and that are not home; those SPILLED start to return (R245). -/
def awaitPages (ctx : Nat) (p : Pool) (cc chunk : Nat) (rs : List TableRow) (s : State) : Bool × State :=
  match lastPos rs, (rowsStream s rs).bind (·.dirSlot) with
  | some m, some d =>
    (spanPages m cc chunk).foldl (fun (acc : Bool × State) n =>
      match (pageAt p d n acc.2).1 with
      | .entry _ v =>
        if leafState v = 4 then (true, markLate ctx d n (startReturn ctx d n true acc.2))
        else if leafState v = 5 ∨ leafState v = 6 then (true, markLate ctx d n acc.2) else acc
      | _ => acc) (false, s)
  | _, _ => (false, s)

/-- The records of one slot. A span overrun's record names the layer by the index of its command, whose LAYER it is (log entry
72). -/
def gatherSlot (x : Queue) (q : Nat) (p : Pool) (c : Cmd) (dmax : Nat) (t : Nat × List TableRow) (s : State) : State :=
  let chunk := c.body 36 2
  let cc := c.body 38 1
  let rs := t.2
  let y := rowsStream s rs
  let b := match lastPos rs with | some m => spanStart m cc chunk | none => 0
  let dir := y.bind (·.dirSlot)
  let badTable := match lastPos rs, dir with
    | some m, some d => (spanPages m cc chunk).any (fun n => (pageAt p d n s).1 == .poison)
    | _, _ => false
  let s := match y with
    | some y => if badTable then loseKv (y.number % 65536) 4 s else s
    | none => s
  let bad := badTable || rs.any (·.poison) || (match y with | some y => y.kvLost | none => false)
  let s := match y with
    | some y =>
      if 0 < b ∧ c.body 39 1 = 0 then
        recordErr { blankErr 25 with ctx := x.ctx, engine := 3, queue := q, listIndex := x.head, stream := y.number, detail := b }
          (bump 5 7 x.ctx 1 s)
      else s
    | none => s
  (List.range (c.body 35 1)).foldl (fun s j => (List.range cc).foldl (fun s k =>
    let (gs, s) := imageRecord p q (c.body 32 2) (c.body 34 1 + j) chunk dmax (b + k * chunk)
      { rows := rs, start := b, dir, bad } s
    putGrans (c.body 40 8 + ((t.1 * c.body 35 1 + j) * cc + k) * c.body 48 4) gs s) s) s

/-- What KV_GATHER does with its pool: it waits until the pages of every slot are home. -/
def gatherEffect (q : Nat) (x : Queue) (c : Cmd) (p : Pool) (s : State) : State :=
  let rs := tableRows s (c.body 56 8)
  let slots := slotRows rs
  let (wait, s) := slots.foldl (fun (acc : Bool × State) t =>
    let (w, s) := awaitPages x.ctx p (c.body 38 1) (c.body 36 2) t.2 acc.2
    (acc.1 || w, s)) (false, s)
  if wait then s
  else markWorked .te q (slots.foldl (fun s t => gatherSlot x q p c (tableDmax rs) t s) s)

def execKvGather (q : Nat) (s : State) : Answer := withPool q 0x42 s (gatherEffect q)

/-! ### Free page contents and hand-over (R140, R253) -/

/-- A granule whose contents the manual leaves open. -/
def takeGran (s : State) : Granule × State :=
  ({ payload := (List.range 64).map (fun i => Config.freeByte (s.free + i))
     tags := (List.range 8).map (fun i => Config.freeByte (s.free + 64 + i)) }, { s with free := s.free + 72 })

/-- The parts of a page of a stream, as they stand. -/
def pageParts (p : Pool) (dir page : Nat) (s : State) : List Granule :=
  match homeEntry p dir page s with
  | some v => (List.range 20).flatMap (fun i =>
      (loadGrans (p.partBytes / 64) (p.frameBase.getD i 0 + leafFrame v * p.partBytes) s).1)
  | none => []

/-- Every page of a stream is home; those SPILLED start to return (R246, R253). -/
def allHome (ctx : Nat) (p : Pool) (dir len : Nat) (s : State) : Bool × State :=
  (List.range ((len + 15) / 16)).foldl (fun (acc : Bool × State) n =>
    match (pageAt p dir n acc.2).1 with
    | .entry _ v =>
      if leafState v = 4 then (false, startReturn ctx dir n false acc.2)
      else if leafState v = 5 ∨ leafState v = 6 then (false, acc.2) else acc
    | _ => acc) (true, s)

/-- One position's entries as a prefill writes them: every granule is a free value, since the programs that compute them
are not the manual's. -/
def freeEntries (p : Pool) (frame pos : Nat) (s : State) : State :=
  let put (a n : Nat) (s : State) : State := (List.range n).foldl (fun s j =>
    let (g, s) := takeGran s
    putGran (a + 64 * j) g s) s
  (List.range (p.layers * p.hkv)).foldl (fun s e =>
    put (p.valueAddr frame (e / p.hkv) (e % p.hkv) (pos % 16)) p.gv
      (put (p.keyAddr frame (e / p.hkv) (e % p.hkv) (pos % 16)) p.gk s)) s

/-- Prefill's entries for positions up to `len`, committed: the answer says whether they are written. Nothing is where a
frame is awaited or the stream is lost (R241). -/
def prefillKv (ctx slot len : Nat) (s : State) : Bool × State :=
  match streamAt s slot, poolOf s ctx with
  | some x, some p =>
    let first := x.kvLen / 16
    match homePages ctx slot ((List.range ((len + 15) / 16 - first)).map (fun i => first + i)) s with
    | (.wait, s) => (false, s)
    | (.loss c, s) => (false, loseKv slot c s)
    | (.got _, s) =>
      let s := (List.range (len - x.kvLen)).foldl (fun s i =>
        match homePage ctx slot ((x.kvLen + i) / 16) s with
        | (.got f, s) => freeEntries p f (x.kvLen + i) s
        | (_, s) => s) s
      (true, commitKv slot len s)
  | _, _ => (true, s)

/-- The pages of a hand-over stored in the destination's pool: how it ends, and what of it is left. -/
def storePages (ctx slot : Nat) : List (List Granule × Nat) → State → (Frame × List (List Granule × Nat)) × State
  | [], s => ((.got 0, []), s)
  | (gs, n) :: r, s =>
    match poolOf s ctx with
    | none => ((.loss 1, (gs, n) :: r), s)
    | some p =>
      match homePage ctx slot n s with
      | (.got f, s) =>
        let g := p.partBytes / 64
        storePages ctx slot r ((List.range 20).foldl (fun s i =>
          putGrans (p.frameBase.getD i 0 + f * p.partBytes) ((gs.drop (i * g)).take g) s) s)
      | (x, s) => ((x, (gs, n) :: r), s)

/-- The pages of a hand-over stored: then the fed token, whose record is written when the ring has room (R214); a wait for
frames leaves the rest for later (R241), and a loss frees what arrived and answers NO_RESOURCE (R253). -/
def takePages (h : Handover) (s : State) : State :=
  match streamNo s h.stream with
  | none => emit (.handoverAnswer h.dev 3) s
  | some x =>
    let slot := h.stream % 65536
    match storePages x.ctx slot h.pages s with
    | ((.got _, _), s) =>
      updStream slot (fun x => { x with promptToken := some h.fed, handFrom := some h.dev, next := h.tokens }) (commitKv slot h.tokens s)
    | ((.wait, rest), s) => { s with fab := { s.fab with handovers := s.fab.handovers ++ [{ h with pages := rest }] } }
    | ((.loss _, _), s) =>
      emit (.handoverAnswer h.dev 4) (freeKv slot (updStream slot (fun x => { x with kvLen := h.tokens }) s))

/-- The hand-overs of a context that wait for frames are tried again, in order. -/
def retryHandovers (ctx : Nat) (s : State) : State :=
  let mine (h : Handover) : Bool := ((streamNo s h.stream).map (fun x => x.ctx == ctx)).getD true
  (s.fab.handovers.filter mine).foldl (fun s h => takePages h s)
    { s with fab := { s.fab with handovers := s.fab.handovers.filter (fun h => !mine h) } }

/-- KV_HANDOVER: the pages and the fed token of a prefill elsewhere. Accepted only where the stream is open, holds no KV entry
and no fed token, and its context's pool has the layout; otherwise BAD_DESCRIPTOR (R253). -/
def execKvHandover (srcDev stream layoutId tokens fed : Nat) (pages : List (List Granule)) (s : State) : Answer :=
  .next (match streamNo s stream with
    | none => emit (.handoverAnswer srcDev 3) s
    | some x =>
      if x.dirSlot.isSome ∨ x.fed.isSome ∨ x.promptToken.isSome ∨ (poolOf s x.ctx).map (·.layoutId) ≠ some layoutId then
        emit (.handoverAnswer srcDev 3) s
      else takePages { dev := srcDev, stream, tokens, fed, pages := pages.zipIdx } s)

/-! ### KV_SPILL_DONE (R243, R246, R488) -/

/-- KV_SPILL_DONE: every write is acknowledged; a failed one returns the page to SEALED with a record (R243, R488). The
frame of a stream that has ended meanwhile is freed now (R246). Pages that wait for a frame are tried again. -/
def execKvSpillDone (ctx dirSlot page : Nat) (s : State) : Answer :=
  .next (if s.pwr.stopped then s else match kvXfer s (spillOf ctx dirSlot page) with
    | none => s
    | some x =>
      match x.use, poolOf s ctx with
      | .spill _ _ _ slot, some p =>
        if outstandingOf s (.xfer x.id) then s
        else
          let s := dropXfer x.id s
          let s :=
            if x.silent then freeSpill ctx slot (freeFrame ctx x.src s)
            else
              match pageAt p dirSlot page s with
              | (.entry a v, s) =>
                if x.failed then
                  freeSpill ctx slot (recordErr { blankErr 15 with ctx, addr := x.dst, detail := devField x.dst }
                    (putLeaf a (leafEntry 2 false (leafFrame v) 0) s))
                else bump 5 2 ctx 1 (freeFrame ctx x.src (putLeaf a (leafEntry 4 (leafTcf v) 0 slot) s))
              | (r, s) => freeSpill ctx slot (freeFrame ctx x.src (lostTable ctx dirSlot r s))
          tickReturns ctx (retryHandovers ctx s)
      | _, _ => s)

end Sys2Proof.Machine
end

