-- ==== Sys2Proof/Machine/Gen.lean ====
section
/-! DEFINITION. Streams, step tables, sampling, stop detection, verification and token records (file 09; R82 to R84). -/
namespace Sys2Proof.Machine

/-! ### Counters of a stream (R232) -/

def bumpStream (x : Stream) (index n : Nat) (s : State) : State := bump 3 index x.number n s

/-- Counters of the weights group (R330), by index: 9 affected steps, 10 retakes. -/
def bumpWeights (ctx index n : Nat) (s : State) : State := bump 9 index ctx n s

/-! ### Token rings (R82 to R84) -/

def tokenRecord (log2 index token pos flags step frame : Nat) : List Byte :=
  natLe 4 token ++ natLe 4 (pos % 2 ^ 22) ++ natLe 1 (phaseBit log2 index + flags) ++ natLe 1 0 ++ natLe 2 step
  ++ natLe 4 frame

/-- Room counted from the last consumer word read. -/
def Stream.room (x : Stream) : Nat := 2 ^ x.log2 - diff32 x.writeIndex x.consumer

/-- The consumer word read; a value that is not between the last one read and the write index is ignored. -/
def readConsumer (slot : Nat) (s : State) : State :=
  match streamAt s slot with
  | some x =>
    let v := leNat (hostBytes s x.consumerAddr 4)
    if insecureAt s x.consumerAddr = false ∧ diff32 v x.consumer ≤ diff32 x.writeIndex x.consumer then updStream slot (fun x => { x with consumer := v }) s else s
  | none => s

/-- One token record written. `flags` holds LAST, DRAFT, REPLAYED and STOP in their places. -/
def writeToken (slot token pos flags step : Nat) (s : State) : State :=
  match streamAt s slot with
  | some x =>
    let s := hostWrite (x.ringAddr + x.writeIndex % 2 ^ x.log2 * 16)
      (tokenRecord x.log2 x.writeIndex token pos flags step s.herd.frame) s
    updStream slot (fun x => { x with writeIndex := (x.writeIndex + 1) % 2 ^ 32, ended := bitOf flags 1 }) s
  | none => s

/-- A stream that can write no further record answers the hand-over whose token waits on it (log entry 72). -/
def answerHandover (slot : Nat) (s : State) : State :=
  match (streamAt s slot).bind (·.handFrom) with
  | some d => emit (.handoverAnswer d 0) (updStream slot (fun x => { x with handFrom := none, promptToken := none }) s)
  | none => s

/-- The final record of a stream that ends without a token of its own: no effect once LAST = 1 is written (R83, R225). -/
def finalRecord (slot stop : Nat) (s : State) : State :=
  match streamAt s slot with
  | some x =>
    if x.ended then s
    else answerHandover slot (updStream slot (fun x => { x with deadlineDue := false, promptToken := none })
      (writeToken slot 0xFFFFFFFF x.next (2 + 16 * stop) 1 s))
  | none => s

/-! ### Stop detection (R224) -/

/-- The lowest STOP code that a token at a position meets; 0 for none. `toks` holds the generated tokens, newest first. -/
def stopCode (p : StreamParams) (toks : List Nat) (emitted pos : Nat) : Nat :=
  if p.stopIds.contains (toks.headD 0) then 1
  else if p.stopSeqs.any (fun q => decide (q ≠ []) && toks.take q.length == q.reverse) then 2
  else if (decide (p.maxLen ≠ 0) && decide (p.maxLen ≤ emitted)) || decide (pos = 4194303) then 3
  else 0

/-- The tokens of a step up to the first that stops the stream, with the STOP code. -/
def cutTokens (p : StreamParams) : (toks : List (Nat × Bool)) → (recent : List Nat) → (emitted pos : Nat) →
    List (Nat × Bool) × Nat
  | [], _, _, _ => ([], 0)
  | (t, d) :: r, recent, emitted, pos =>
    let stop := stopCode p (t :: recent) (emitted + 1) pos
    if stop ≠ 0 then ([(t, d)], stop)
    else
      let (a, b) := cutTokens p r (t :: recent) (emitted + 1) (pos + 1)
      ((t, d) :: a, b)

/-- A step's tokens emitted: its records, the stream's position, fed token, counts and history; a prompt's last token is a step
of one record (R214, R224, R227, R229, R232). -/
def emitStep (slot : Nat) (toks : List (Nat × Bool)) (replayed : Bool) (s : State) : State :=
  match streamAt s slot with
  | none => s
  | some x =>
    let (ts, stop) := cutTokens x.params toks (x.recent.map (·.1)) x.emitted x.next
    let n := ts.length
    let s := ts.zipIdx.foldl (fun s t =>
      let last := decide (stop ≠ 0) && decide (t.2 + 1 = n)
      writeToken slot t.1.1 (x.next + t.2)
        (2 * bitNat last + 4 * bitNat t.1.2 + 8 * bitNat replayed + (if last then 16 * stop else 0)) n s) s
    let hist := (ts.zipIdx.map (fun t => (t.1.1, x.next + t.2))).reverse
    bumpStream x 1 1 (bumpStream x 0 n (updStream slot (fun x => { x with
      next := x.next + n, fed := (ts.getLast?.map (·.1)).orElse (fun _ => x.fed), emitted := x.emitted + n
      recent := (hist ++ x.recent).take 16 }) s))

/-! ### Drafts (R220, R226) -/

/-- Module drafts without a gap from draft 0. -/
def moduleDrafts (x : Stream) : List Nat :=
  (List.range 8).foldr (fun i r => match tabGet x.drafts i with | some t => t :: r | none => []) []

/-- The tokens of a host record that are usable now; none where the record is stale. -/
def hostDrafts (x : Stream) : Option (List Nat) :=
  match x.hostDraft with
  | none => none
  | some (start, toks) =>
    let o := x.next - start
    if start ≤ x.next ∧ o ≤ toks.length
        ∧ (List.range o).all (fun i => x.recent.contains (toks.getD i 0, start + i)) = true then some (toks.drop o)
    else none

/-- The usable drafts of a stream, at most DRAFT_MAX. -/
def usableDrafts (x : Stream) : List Nat :=
  match x.params.draftSrc with
  | 1 => (moduleDrafts x).take x.params.draftMax
  | 2 => ((hostDrafts x).getD []).take x.params.draftMax
  | _ => []

/-- The host draft record read at a tick (R219): none with a reserved field that is not zero, counted as stale. -/
def readHostDraft (slot : Nat) (s : State) : State :=
  match streamAt s slot with
  | some x =>
    let b := hostBytes s x.params.draftAddr 64
    let n := fieldAt b 4 1
    let ok := !hostUnread s x.params.draftAddr 64 && decide (fieldAt b 0 4 < 2 ^ 22) && decide (n ≤ 8)
      && decide (fieldAt b 5 3 = 0) && decide (leNat (slice b 40 24) = 0)
    let rec_ := if ok then some (fieldAt b 0 4, (List.range n).map (fun i => fieldAt b (8 + 4 * i) 4)) else none
    updStream slot (fun x => { x with hostDraft := rec_ }) s
  | none => s

/-! ### Masks (R215) -/

/-- The barrier of a context is held. -/
def barrierHeld (s : State) (ctx : Nat) : Bool := (((ctxAt s ctx).bind (·.barrier)).map (·.held)).getD false

/-- The lowest reason that masks a stream's slot, whose step would use `d` drafts; 0 for none. -/
def maskReason (s : State) (x : Stream) (d : Nat) : Nat :=
  if x.ended then 1
  else if x.fed.isNone then 2
  else if x.prompt.isSome then 3
  else if x.room < d + 2 then 4
  else if x.deadlineDue then 5
  else if barrierHeld s x.ctx then 6
  else 0

/-- A masked frame counted once; a stall for ring room is posted once per run (R84, R215). -/
def countMask (slot reason : Nat) (s : State) : State :=
  match streamAt s slot with
  | none => s
  | some x =>
    let s := if x.masked then s else bumpStream x (4 + reason) 1 (updStream slot (fun x => { x with masked := true }) s)
    if reason = 4 ∧ !x.stalled then
      postEvent (x.ctx + 1) 5 0 0xFFFF (natLe 4 x.number) (updStream slot (fun x => { x with stalled := true }) s)
    else if reason ≠ 4 then updStream slot (fun x => { x with stalled := false }) s else s

/-! ### STEP_PREP (R217, R218) -/

def batchOf (s : State) (ctx b : Nat) : Option Batch := (ctxAt s ctx).bind (fun c => tabGet c.batches b)

/-- The stream in a slot of a batch, while the slot is still its own. -/
def slotStream (s : State) (b : Batch) (t : Nat) : Option Stream :=
  if b.gone.contains t then none else (b.streams[t]?).bind (streamNo s)

def tableBytes (token pos stream : Nat) (valid draft : Bool) (row slot : Nat) : List Byte :=
  natLe 4 token ++ natLe 4 (pos % 2 ^ 22) ++ natLe 4 stream ++ natLe 1 (bitNat valid + 2 * bitNat draft) ++ natLe 1 row
  ++ natLe 2 slot

/-- The rows of one slot from row `first` on; `draft i` is draft `i`, where there is one. -/
def slotTable (b : Batch) (t first rows : Nat) (x : Option Stream) (masked : Bool) (draft : Nat → Option Nat) : List Byte :=
  let no := b.streams.getD t 0xFFFFFFFF
  let next := (x.map (·.next)).getD 0
  (List.range rows).flatMap (fun i =>
    let j := first + i
    let tok := if masked then none else if j = 0 then x.bind (·.fed) else draft (j - 1)
    tableBytes (tok.getD 0) (next - 1 + j) no tok.isSome (tok.isSome && decide (j ≠ 0)) j t)

/-- The rows of the last granule that no slot fills. -/
def tablePad (rows count n : Nat) : List Byte :=
  (List.range n).flatMap (fun i => tableBytes 0 0 0xFFFFFFFF false false (i % max 1 rows) (count + i / max 1 rows))

/-- What STEP_PREP writes for one slot, and the counts it makes. In draft mode the row holds draft IDX − 1, whatever DRAFT_MAX
is; it is invalid where the frame has written no such draft (log entry 72). -/
def prepSlot (b : Batch) (main : Bool) (idx t : Nat) (s : State) : List Byte × State :=
  let first := if main then 0 else idx
  let rows := if main then idx + 1 else 1
  match slotStream s b t with
  | none => (slotTable b t first rows none true (fun _ => none), s)
  | some x =>
    let slot := x.number % 65536
    let ds := if main then (usableDrafts x).take idx else []
    let m := maskReason s x ds.length
    let bytes := slotTable b t first rows (some x) (decide (m ≠ 0)) (fun i => if main then ds[i]? else tabGet x.drafts i)
    if !main then (bytes, s)
    else if m ≠ 0 then (bytes, countMask slot m s)
    else
      let s := updStream slot (fun x => { x with stalled := false }) s
      let s := if x.params.draftSrc = 2 ∧ (hostDrafts x).isNone then bumpStream x 4 1 s else s
      (bytes, bumpStream x 2 ds.length s)

/-- BATCH, MODE, IDX, TABLE_ADDR of a STEP_PREP with no defect. -/
def prepBodyOk (c : Cmd) : Bool :=
  tasksOk c 1024 && decide (c.body 32 2 < 64) && decide (c.body 34 1 ≤ 1)
  && decide (c.body 35 1 ≤ (if c.body 34 1 = 0 then 8 else 7)) && decide (c.body 36 4 = 0)
  && tableAddrOk (c.body 40 8) && decide (leNat (slice c 48 16) = 0)

def execStepPrep (q : Nat) (s : State) : Answer :=
  .next (match workHead s .se q 0x30 with
    | none => s
    | some (x, c) =>
      let s := markWorked .se q s
      let main := c.body 34 1 == 0
      let idx := c.body 35 1
      let a := c.body 40 8
      let b := (batchOf s x.ctx (c.body 32 2)).getD { streams := [], vector := 0, irqEn := false, fn := 0, gone := [] }
      let rows := if main then idx + 1 else 1
      let n := b.streams.length
      let (bytes, s) := (List.range n).foldl (fun (acc : List Byte × State) t =>
        let (bs, s) := prepSlot b main idx t acc.2
        (acc.1 ++ bs, s)) ([], s)
      let pad := (4 - n * rows % 4) % 4
      let gs := toGrans ((n * rows + 3) / 4) (bytes ++ tablePad rows n pad)
      putGran (tableHead a) { payload := slice (natLe 4 (n * rows)) 0 64, tags := List.replicate 8 0 } (putGrans a gs s))

/-! ### Selection (R221 to R223) -/

/-- The 64-bit mix of R221. -/
def drawMix (seed pos : Nat) : Nat :=
  let x := (seed ^^^ (pos * 0x9E3779B97F4A7C15)) % 2 ^ 64
  let x := ((x ^^^ (x / 2 ^ 30)) * 0xBF58476D1CE4E5B9) % 2 ^ 64
  let x := ((x ^^^ (x / 2 ^ 27)) * 0x94D049BB133111EB) % 2 ^ 64
  x ^^^ (x / 2 ^ 31)

/-- The draw u, exact. -/
def draw (seed pos : Nat) : F32 := roundF32 false (drawMix seed pos / 2 ^ 40) (-24)

/-- Index of the greatest value, ties to the lower. -/
def argmax (l : List F32) : Nat :=
  (l.zipIdx.foldl (fun (b : Option (F32 × Nat)) v => match b with
    | none => some v
    | some w => if ltF32 w.1 v.1 then some v else b) none).map (·.2) |>.getD 0

/-- Candidates by descending logit, ties to the lower index. -/
def topK (l : List F32) (k : Nat) : List (F32 × Nat) :=
  (l.zipIdx.mergeSort (fun a b => ltF32 b.1 a.1 || (!ltF32 a.1 b.1 && decide (a.2 ≤ b.2)))).take k

/-- Cumulative sums of the weights. -/
def cumWeights (top invT : F32) : List (F32 × Nat) → F32 → List F32
  | [], _ => []
  | c :: r, acc =>
    let a := addF32 acc (expF32 (mulF32 (addF32 c.1 (negF32 top)) invT))
    a :: cumWeights top invT r a

/-- The last index of the nucleus: candidates are kept while the sum before them is below the limit. -/
def nucleus (cum : List F32) (lim : F32) : (fuel kk : Nat) → Nat
  | 0, kk => kk
  | n + 1, kk => if kk < cum.length && ltF32 (cum.getD (kk - 1) 0) lim then nucleus cum lim n (kk + 1) else kk

def pick (cum : List F32) (t : F32) (kk : Nat) : (fuel j : Nat) → Nat
  | 0, j => j
  | n + 1, j => if j + 1 < kk && !ltF32 t (cum.getD j 0) then pick cum t kk n (j + 1) else j

/-- The token that one row of logits selects, and whether the sample is degenerate. A NaN counts as −∞ (R223). -/
def selectToken (p : StreamParams) (u : F32) (row : List F32) : Nat × Bool :=
  let l := row.map (fun x => if isNan x then f32Inf true else x)
  match l.findIdx? (fun x => x == f32Inf false) with
  | some i => (i, false)
  | none =>
    if l.all (fun x => x == f32Inf true) then (0, true)
    else if p.sample = 0 then (argmax l, false)
    else
      let c := topK l p.topK
      let cum := cumWeights ((c.headD (0, 0)).1) p.invT c 0
      let lim := mulF32 p.topP (cum.getLastD 0)
      let kk := nucleus cum lim cum.length 1
      let t := mulF32 u (cum.getD (kk - 1) 0)
      ((c.getD (pick cum t kk cum.length 0) (0, 0)).2, false)

/-! ### SAMPLE (R220, R227, R229, R230) -/

/-- The logits of a table row, and whether a granule of them is poisoned. -/
def logitsRow (c : Cmd) (r : Nat) (s : State) : List F32 × Bool × State :=
  let vocab := c.body 36 4
  let f := c.body 48 1
  let (gs, s) := loadGrans (rowGrans f vocab) (c.body 40 8 + r * c.body 52 4 * 64) s
  ((rowValues f vocab gs).map (·.1), gs.any isPoison, s)

/-- What a row or the rows of a step give: tokens, a poisoned row, degenerate samples, NaN logits. -/
structure Verified where
  toks : List (Nat × Bool)
  bad : Bool
  degenerate : Nat
  nans : Nat
deriving DecidableEq, Repr

/-- Verification of a slot from row `j` on (R227): it ends at the first token that is no accepted draft or that stops the
stream; `recent` holds the generated tokens before row `j`, newest first. -/
def verify (c : Cmd) (x : Stream) (first : Nat) (drafts : List Nat) :
    (fuel j : Nat) → (recent : List Nat) → State → Verified × State
  | 0, _, _, s => ({ toks := [], bad := false, degenerate := 0, nans := 0 }, s)
  | k + 1, j, recent, s =>
    let (row, bad, s) := logitsRow c (first + j) s
    if bad then ({ toks := [], bad := true, degenerate := 0, nans := 0 }, s)
    else
      let (y, deg) := selectToken x.params (draw x.seed (x.next + j)) row
      let nans := (row.filter isNan).length
      if j < drafts.length ∧ drafts.getD j 0 = y then
        if stopCode x.params (y :: recent) (x.emitted + j + 1) (x.next + j) ≠ 0 then
          ({ toks := [(y, true)], bad := false, degenerate := bitNat deg, nans }, s)
        else
          let (v, s) := verify c x first drafts k (j + 1) (y :: recent) s
          ({ v with toks := (y, true) :: v.toks, degenerate := v.degenerate + bitNat deg, nans := v.nans + nans }, s)
      else ({ toks := [(y, false)], bad := false, degenerate := bitNat deg, nans }, s)

/-- NaN logits counted (R223). -/
def countNans (n : Nat) (s : State) : State := { s with tally := { s.tally with nanLogits := s.tally.nanLogits + n } }

/-- Degenerate samples: counted, with an error record (R223). -/
def noteDegenerate (x : Stream) (q n : Nat) (s : State) : State :=
  (List.range n).foldl (fun s _ => recordErr { blankErr 23 with ctx := x.ctx, engine := 2, queue := q, stream := x.number }
    (bumpStream x 11 1 s)) s

/-- A step that read poison: nothing is written or committed, and the step is owed again (R230, R325, R328). -/
def affectStream (x : Stream) (s : State) : State :=
  bumpWeights x.ctx 9 1 (updStream (x.number % 65536) (fun x => { x with retake := true, stepped := true }) s)

/-- One slot of a main-mode SAMPLE: the answer says whether a record was written. -/
def sampleSlot (c : Cmd) (q : Nat) (b : Batch) (rows : List TableRow) (t : Nat) (s : State) : Bool × State :=
  match slotStream s b t with
  | none => (false, s)
  | some x =>
    let slot := x.number % 65536
    let mine := rows.filter (fun r => r.slot == t)
    match mine.head? with
    | none => (false, s)
    | some r0 =>
      if x.ended ∨ x.stepped then (false, s)
      else if x.deadlineDue then (true, finalRecord slot 4 (updStream slot (fun x => { x with stepped := true }) s))
      else if x.kvLost then (false, s)
      else if mine.any (·.poison) then (false, affectStream x s)
      else if !r0.valid then (false, s)
      else
        let s := if x.retake then bumpWeights x.ctx 10 1 s else s
        let drafts := ((mine.drop 1).takeWhile (·.valid)).map (·.token)
        let (v, s) := verify c x r0.index drafts (drafts.length + 1) 0 (x.recent.map (·.1)) s
        if v.bad ∨ x.kvPoison then (false, affectStream x s)
        else
          let s := emitStep slot v.toks x.retake (noteDegenerate x q v.degenerate (countNans v.nans s))
          let s := commitKv slot (x.next + v.toks.length - 1) s
          let s := bumpStream x 3 (v.toks.filter (·.2)).length s
          let s := if x.retake then bumpStream x 12 1 s else s
          (true, updStream slot (fun y => { y with stepped := true, retake := false, lastStep := s.herd.frame }) s)

/-- Draft mode: one token of one slot, kept for this frame. -/
def draftSlot (c : Cmd) (q : Nat) (b : Batch) (rows : List TableRow) (t : Nat) (s : State) : State :=
  match slotStream s b t, rows.find? (fun r => r.slot == t) with
  | some x, some r =>
    if !r.valid ∨ r.poison then s
    else
      let (row, bad, s) := logitsRow c r.index s
      if bad then s
      else
        let (y, deg) := selectToken x.params (draw x.seed (x.next + c.body 35 1)) row
        updStream (x.number % 65536) (fun x => { x with drafts := tabSet x.drafts (c.body 35 1) y })
          (noteDegenerate x q (bitNat deg) (countNans (row.filter isNan).length s))
  | _, _ => s

def sampleBodyOk (c : Cmd) : Bool :=
  let f := c.body 48 1
  tasksOk c 1024 && decide (c.body 32 2 < 64) && decide (c.body 34 1 ≤ 1)
  && decide (c.body 35 1 ≤ (if c.body 34 1 = 0 then 0 else 7)) && decide (1 ≤ c.body 36 4 ∧ c.body 36 4 ≤ 1048576)
  && decide (c.body 40 8 % 64 = 0) && inT1Store (c.body 40 8) 64 && decide (f = 10 ∨ f = 11) && decide (c.body 49 3 = 0)
  && decide (rowGrans f (c.body 36 4) ≤ c.body 52 4) && tableAddrOk (c.body 56 8)

def execSample (q : Nat) (s : State) : Answer :=
  .next (match workHead s .se q 0x31 with
    | none => s
    | some (x, c) =>
      let s := markWorked .se q s
      match batchOf s x.ctx (c.body 32 2) with
      | none => s
      | some b =>
        let rows := tableRows s (c.body 56 8)
        let slots := List.range b.streams.length
        if c.body 34 1 = 1 then slots.foldl (fun s t => draftSlot c q b rows t s) s
        else
          let (wrote, s) := slots.foldl (fun (acc : Bool × State) t =>
            let (w, s) := sampleSlot c q b rows t acc.2
            (acc.1 || w, s)) (false, s)
          if wrote ∧ b.irqEn then signalVector b.fn b.vector s else s)

/-! ### Ends of streams (R139, R232) -/

/-- A stream ends and its slot is free: its final record, its counts into the context's totals, its pages. -/
def endStream (slot stop : Nat) (s : State) : State :=
  match streamAt s slot with
  | none => s
  | some x =>
    let s := freeKv slot (answerHandover slot (finalRecord slot stop s))
    let s := (List.range 13).foldl (fun s i => setCounter 3 i x.number 0 (bump 4 i x.ctx (counterOf s 3 i x.number) s)) s
    { s with streams := tabDel s.streams slot }

end Sys2Proof.Machine
end

