-- ==== Sys2Proof/Machine/Route.lean ====
section
/-! DEFINITION. Expert routing: descriptors, selection, planning and the hot pool, scatter, gather, combine, and the fill
groups written from the result (file 11; R116, R117). -/
namespace Sys2Proof.Machine

/-! ### The layer routing descriptor (R259, R260) -/

/-- A layer routing descriptor, its 512 bytes. -/
abbrev Lrd := List Byte

def Lrd.mode (d : Lrd) : Nat := fieldAt d 2 1
def Lrd.scoreFn (d : Lrd) : Nat := fieldAt d 3 1
def Lrd.k (d : Lrd) : Nat := fieldAt d 4 1
def Lrd.renorm (d : Lrd) : Bool := bitOf (fieldAt d 5 1) 0
def Lrd.floorEn (d : Lrd) : Bool := bitOf (fieldAt d 5 1) 1
def Lrd.resid (d : Lrd) : Bool := bitOf (fieldAt d 5 1) 2
def Lrd.split (d : Lrd) : Bool := bitOf (fieldAt d 5 1) 3
def Lrd.p (d : Lrd) : Nat := fieldAt d 6 1
def Lrd.sfmt (d : Lrd) : Nat := fieldAt d 7 1
def Lrd.e (d : Lrd) : Nat := fieldAt d 8 2
def Lrd.layer (d : Lrd) : Nat := fieldAt d 10 2
def Lrd.c (d : Lrd) : Nat := fieldAt d 12 2
def Lrd.hotSlots (d : Lrd) : Nat := fieldAt d 14 2
def Lrd.floor (d : Lrd) : F32 := BitVec.ofNat 32 (fieldAt d 16 4)
def Lrd.igr (d : Lrd) : Nat := fieldAt d 20 2
def Lrd.ogr (d : Lrd) : Nat := fieldAt d 22 2
def Lrd.yfmt (d : Lrd) : Nat := fieldAt d 24 1
def Lrd.ofmt (d : Lrd) : Nat := fieldAt d 25 1
def Lrd.scores (d : Lrd) : Nat := fieldAt d 32 8
def Lrd.scoreStr (d : Lrd) : Nat := fieldAt d 40 4
def Lrd.tokens (d : Lrd) : Nat := fieldAt d 48 8
def Lrd.assign (d : Lrd) : Nat := fieldAt d 56 8
def Lrd.send (d : Lrd) : Nat := fieldAt d 64 8
def Lrd.countbox (d : Lrd) : Nat := fieldAt d 72 8
def Lrd.inbox (d : Lrd) : Nat := fieldAt d 80 8
def Lrd.outbox (d : Lrd) : Nat := fieldAt d 88 8
def Lrd.ret (d : Lrd) : Nat := fieldAt d 96 8
def Lrd.residAddr (d : Lrd) : Nat := fieldAt d 104 8
def Lrd.out (d : Lrd) : Nat := fieldAt d 112 8
def Lrd.coldBase (d : Lrd) : Nat := fieldAt d 120 8
def Lrd.partBytes (d : Lrd) : Nat := fieldAt d 128 8
def Lrd.imagePart (d : Lrd) : Nat := fieldAt d 136 4
def Lrd.devs (d : Lrd) : List Nat := (List.range (min 64 (Lrd.p d))).map (fun i => fieldAt d (144 + 2 * i) 2)
def Lrd.hotBase (d : Lrd) : List Nat := (List.range 20).map (fun i => fieldAt d (272 + 8 * i) 8)

def Lrd.epp (d : Lrd) : Nat := Lrd.e d / max 1 (Lrd.p d)
def Lrd.blockRows (d : Lrd) : Nat := Lrd.epp d * Lrd.c d
def Lrd.cmBytes (d : Lrd) : Nat := 64 * (1 + (Lrd.epp d + 31) / 32)
def Lrd.rbBytes (d : Lrd) : Nat := 576 + Lrd.blockRows d * Lrd.ogr d * 64
def Lrd.woff (d : Lrd) : Nat := 64 * (1 + Lrd.p d * Lrd.c d * (Lrd.igr d + Lrd.ogr d))
/-- Bytes from a stack's slot 0 part to the end of its last part, whose image may end beyond PART_BYTES (Table 11-4). -/
def Lrd.poolBytes (d : Lrd) : Nat :=
  (Lrd.hotSlots d - 1) * Lrd.partBytes d + max (Lrd.partBytes d) (Lrd.woff d + Lrd.imagePart d)
def Lrd.vals (d : Lrd) : Nat := Lrd.ogr d * fmtValues (Lrd.yfmt d)
/-- Granules of a combined output row and of a residual row. -/
def Lrd.outGr (d : Lrd) : Nat := (Lrd.vals d + fmtValues (Lrd.ofmt d) - 1) / fmtValues (Lrd.ofmt d)

/-- The own participant index. -/
def Lrd.own (s : State) (d : Lrd) : Nat := ((Lrd.devs d).findIdx? (fun x => x == devOf s)).getD 0

def f10or11 (f : Nat) : Bool := f == 10 || f == 11

/-- An area of a layer lies in T1 or the Store, from a multiple of 64. -/
def areaOk (a n : Nat) : Bool := decide (a % 64 = 0) && inT1Store a n

/-- A descriptor with no defect of R259 and R260. -/
def lrdOk (s : State) (d : Lrd) : Bool :=
  let p := Lrd.p d
  let e := Lrd.e d
  decide (fieldAt d 0 2 = 1) && decide (Lrd.mode d ≤ 1) && decide (Lrd.scoreFn d ≤ 2)
  && (if Lrd.mode d = 1 then decide (1 ≤ Lrd.k d ∧ Lrd.k d ≤ 16 ∧ Lrd.k d ≤ e) else decide (Lrd.k d = 0))
  && decide (fieldAt d 5 1 < 16) && !(decide (Lrd.mode d = 1) && Lrd.floorEn d) && decide (1 ≤ p ∧ p ≤ 64)
  && f10or11 (Lrd.sfmt d) && decide (1 ≤ e ∧ e ≤ 4096 ∧ e % p = 0) && decide (Lrd.layer d ≤ 4095)
  && decide (1 ≤ Lrd.c d ∧ Lrd.epp d * Lrd.c d ≤ 16777216) && decide (1 ≤ Lrd.hotSlots d ∧ Lrd.hotSlots d ≤ 4096)
  && (decide (Lrd.coldBase d ≠ 0) || decide (Lrd.hotSlots d = Lrd.epp d))
  && (Lrd.floorEn d || decide (fieldAt d 16 4 = 0)) && decide (1 ≤ Lrd.igr d ∧ Lrd.igr d ≤ 1024)
  && decide (1 ≤ Lrd.ogr d ∧ Lrd.ogr d ≤ 1024) && (!Lrd.split d || decide (Lrd.ogr d % 20 = 0))
  && f10or11 (Lrd.yfmt d) && f10or11 (Lrd.ofmt d) && decide (fieldAt d 26 6 = 0)
  && decide (rowGrans (Lrd.sfmt d) e ≤ Lrd.scoreStr d) && decide (fieldAt d 44 4 = 0)
  && areaOk (Lrd.scores d) 64 && areaOk (Lrd.tokens d) 64 && decide (64 ≤ Lrd.assign d)
  && areaOk (Lrd.assign d - 64) 128 && decide (p * Lrd.cmBytes d ≤ Lrd.send d)
  && areaOk (Lrd.send d - p * Lrd.cmBytes d) (p * (Lrd.cmBytes d + Lrd.blockRows d * Lrd.igr d * 64))
  && areaOk (Lrd.countbox d) (p * Lrd.cmBytes d) && areaOk (Lrd.inbox d) (p * Lrd.blockRows d * Lrd.igr d * 64)
  && areaOk (Lrd.outbox d) (p * Lrd.rbBytes d) && areaOk (Lrd.ret d) (p * Lrd.rbBytes d)
  && (if Lrd.resid d then areaOk (Lrd.residAddr d) 64 else decide (Lrd.residAddr d = 0)) && areaOk (Lrd.out d) 64
  && decide (Lrd.coldBase d < 2 ^ 56) && decide (Lrd.partBytes d % 2048 = 0)
  && decide (Lrd.imagePart d % 64 = 0) && decide (fieldAt d 140 4 = 0)
  && (Lrd.devs d).all (fun x => decide (x < 16384)) && (Lrd.devs d).contains (devOf s)
  && decide (leNat (slice d (144 + 2 * p) (128 - 2 * p)) = 0)
  && (Lrd.hotBase d).all (fun b => decide (b % 2048 = 0) && inT1Store b (Lrd.poolBytes d))
  && decide (leNat (slice d 432 80) = 0)

/-- The part of a routing body's rule that the list alone decides (R133, R258). -/
def routeBodyStatic (c : Cmd) : Bool :=
  let a := c.body 32 8
  decide (c.tasks ≤ 1) && decide (a % 64 = 0) && inT1Store a 512 && (decide (c.body 40 8 = 0) || tableAddrOk (c.body 40 8))
  && decide (c.body 48 2 < 4096) && decide (c.body 50 2 ≤ 4096) && decide (leNat (slice c 52 12) = 0)
  && (decide (c.opcode = 0x21) || decide (c.body 48 4 = 0))

/-- A routing body with no defect (R258); a poisoned descriptor is met when the command runs. -/
def routeBodyOk (s : State) (c : Cmd) : Bool :=
  let a := c.body 32 8
  routeBodyStatic c && ((loadBytes a 512 s).2.1 || lrdOk s (peek s a 512))

def routeBump (ctx layer index n : Nat) (s : State) : State := bump 6 index (ctx * 65536 + layer) n s

/-! ### Rows and scores (R261, R262) -/

/-- The quotient of two finite values, or the IEEE one, correctly rounded. -/
def divF32 (a b : F32) : F32 :=
  match f32Val a, f32Val b with
  | .nan _ _, _ | _, .nan _ _ => f32Nan 9 a b
  | .inf s, .inf _ => let _ := s; f32Nan 9 a b
  | .inf s, .fin t _ _ => f32Inf (s != t)
  | .fin s _ _, .inf t => BitVec.ofNat 32 (if s != t then 2 ^ 31 else 0)
  | .fin s m e, .fin t n f =>
    if n = 0 then (if m = 0 then f32Nan 9 a b else f32Inf (s != t))
    else if m = 0 then BitVec.ofNat 32 (if s != t then 2 ^ 31 else 0)
    else ratioF32 (s != t) m n (e - f)

/-- N, the rows of the routing group. -/
def groupRows (c : Cmd) (d : Lrd) (s : State) : Nat × State :=
  if c.body 40 8 = 0 then
    let r := loadBytes (tableHead (Lrd.tokens d)) 4 s
    (leNat r.1, r.2.2)
  else (tableCount s (c.body 40 8), s)

def rowValid (s : State) (c : Cmd) (t : Nat) : Bool :=
  c.body 40 8 == 0 || (tableRow s (c.body 40 8) t).valid

/-- A score row as ROUTE_SELECT reads it: validity, scores with NaN as −∞, how many NaN, and whether a granule is poisoned. -/
structure ScoreRow where
  valid : Bool
  scores : List F32
  nans : Nat
  poison : Bool

def scoreRow (c : Cmd) (d : Lrd) (t : Nat) (s : State) : ScoreRow × State :=
  let (gs, s) := loadGrans (rowGrans (Lrd.sfmt d) (Lrd.e d)) (Lrd.scores d + t * Lrd.scoreStr d * 64) s
  let vs := (rowValues (Lrd.sfmt d) (Lrd.e d) gs).map (·.1)
  ({ valid := rowValid s c t, scores := vs.map (fun x => if isNan x then f32Inf true else x)
     nans := (vs.filter isNan).length, poison := gs.any isPoison }, s)

/-- SCORE_FN applied to a row. -/
def scoreFn (f : Nat) (l : List F32) : List F32 :=
  match f with
  | 0 =>
    if l.any (fun x => x == f32Inf false) then l.map (fun x => if x == f32Inf false then 0x3F800000 else 0)
    else if l.all (fun x => x == f32Inf true) then l.map (fun _ => 0)
    else
      let m := match l with | [] => 0 | y :: ys => ys.foldl maxF32 y
      let w := l.map (fun x => expF32 (addF32 x (negF32 m)))
      let z := match w with | [] => 0 | y :: ys => ys.foldl addF32 y
      w.map (fun x => divF32 x z)
  | 1 => l.map (fun x => divF32 0x3F800000 (addF32 0x3F800000 (expF32 (negF32 x))))
  | _ => l

/-- One row of the routing group as selection sees it. -/
structure RouteRow where
  scores : List F32
  live : Bool

/-! ### Selection (R263, R264) -/

/-- An assignment: token, expert, rank. -/
abbrev Assign := Nat × Nat × Nat

/-- Indices in order of descending score, then ascending. -/
def byScore (xs : List (Nat × F32)) : List (Nat × F32) :=
  xs.mergeSort (fun a b => ltF32 b.2 a.2 || (!ltF32 a.2 b.2 && decide (a.1 ≤ b.1)))

/-- x ≥ y, false where either is a NaN (R263). -/
def atLeast (x y : F32) : Bool := !isNan x && !isNan y && !ltF32 x y

def expertChoice (d : Lrd) (rows : List RouteRow) : List Assign :=
  (List.range (Lrd.e d)).flatMap (fun e =>
    let xs := rows.zipIdx.filterMap (fun r => if r.1.live then some (r.2, r.1.scores.getD e 0) else none)
    let xs := if Lrd.floorEn d then xs.filter (fun x => atLeast x.2 (Lrd.floor d)) else xs
    ((byScore xs).take (Lrd.c d)).zipIdx.map (fun x => (x.1.1, e, x.2)))

/-- One rank of token choice: the assignments, the fill of each expert, and the drops. -/
def choiceRank (c r : Nat) : List (Nat × List Nat) → Sparse Nat → Nat → List Assign → List Assign × Sparse Nat × Nat
  | [], cnt, drops, acc => (acc, cnt, drops)
  | (t, ch) :: rest, cnt, drops, acc =>
    match ch[r]? with
    | none => choiceRank c r rest cnt drops acc
    | some e =>
      if tabNat cnt e < c then choiceRank c r rest (tabSet cnt e (tabNat cnt e + 1)) drops (acc ++ [(t, e, r)])
      else choiceRank c r rest cnt (drops + 1) acc

def tokenChoice (d : Lrd) (rows : List RouteRow) : List Assign × Nat :=
  let ch := rows.zipIdx.filterMap (fun r =>
    if r.1.live then some (r.2, ((byScore (r.1.scores.zipIdx.map (fun x => (x.2, x.1)))).take (Lrd.k d)).map (·.1)) else none)
  let out := (List.range (Lrd.k d)).foldl (fun (a : List Assign × Sparse Nat × Nat) r =>
    choiceRank (Lrd.c d) r ch a.2.1 a.2.2 a.1) ([], [], 0)
  (out.1, out.2.2)

/-- Assignments by token then expert, with the row index in the block of the expert's host (R266, R267). -/
def placeAssigns (d : Lrd) (as : List Assign) : List (Assign × Nat) :=
  let byExpert := as.mergeSort (fun a b => decide (a.2.1 < b.2.1 ∨ a.2.1 = b.2.1 ∧ a.1 ≤ b.1))
  let blocks := (List.range (Lrd.p d)).flatMap (fun q =>
    (byExpert.filter (fun a => decide (a.2.1 / max 1 (Lrd.epp d) = q))).zipIdx)
  blocks.mergeSort (fun a b => decide (a.1.1 < b.1.1 ∨ a.1.1 = b.1.1 ∧ a.1.2.1 ≤ b.1.2.1))

def countMessage (s : State) (d : Lrd) (counts : List Nat) : List Byte :=
  natLe 2 1 ++ natLe 2 (Lrd.layer d) ++ natLe 4 s.herd.frame ++ natLe 1 (Lrd.own s d) ++ natLe 1 0 ++ natLe 2 (Lrd.epp d)
  ++ natLe 4 counts.sum ++ natLe 48 0 ++ counts.flatMap (natLe 2)

/-- The descriptor of a routing command, or the fault it raises. -/
def withLrd (q opcode : Nat) (s : State) (k : Queue → Cmd → Lrd → State → State) : Answer :=
  .next (match workHead s .se q opcode with
    | none => s
    | some (x, c) =>
      let (d, bad, s) := loadBytes (c.body 32 8) 512 s
      if bad then faultPoison .se q s else if !lrdOk s d then faultQueue .se q 9 s else k x c d (markWorked .se q s))

/-- What ROUTE_SELECT does (R261 to R268). -/
def routeSelectEffect (x : Queue) (c : Cmd) (d : Lrd) (s : State) : State :=
  let (all, s) := groupRows c d s
  let n := min 65536 all
  let lay := Lrd.layer d
  let s := if all ≤ 65536 then s
    else routeBump x.ctx lay 17 (all - 65536) (recordErr { blankErr 19 with ctx := x.ctx, engine := 2, detail := all - 65536 } s)
  let (raw, s) := (List.range n).foldl (fun (acc : List ScoreRow × State) t =>
    let (r, s) := scoreRow c d t acc.2
    (acc.1 ++ [r], s)) ([], s)
  let rows := raw.map (fun r => ({ scores := scoreFn (Lrd.scoreFn d) r.scores, live := r.valid && !r.poison } : RouteRow))
  let (as, drops) := if Lrd.mode d = 0 then (expertChoice d rows, 0) else tokenChoice d rows
  let placed := placeAssigns d as
  let s := routeBump x.ctx lay 0 placed.length (routeBump x.ctx lay 1 drops
    (routeBump x.ctx lay 6 (raw.filter (fun r => !r.valid)).length
    (routeBump x.ctx lay 12 ((raw.map (fun r => if r.valid then r.nans else 0)).sum)
    (routeBump x.ctx lay 13 (raw.filter (fun r => r.valid && r.poison)).length s))))
  let recs := placed.flatMap (fun a =>
    natLe 4 a.1.1 ++ natLe 2 a.1.2.1 ++ natLe 2 a.1.2.2 ++ natLe 4 a.2
      ++ natLe 4 (((rows.getD a.1.1 { scores := [], live := false }).scores.getD a.1.2.1 0)).toNat)
  let s := putGrans (Lrd.assign d - 64) (toGrans 1 (natLe 4 placed.length) ++ toGrans ((placed.length + 3) / 4) recs) s
  let s := placed.foldl (fun s a =>
    let (gs, s) := loadGrans (Lrd.igr d) (Lrd.tokens d + a.1.1 * Lrd.igr d * 64) s
    putGrans (Lrd.send d + (a.1.2.1 / max 1 (Lrd.epp d) * Lrd.blockRows d + a.2) * Lrd.igr d * 64) gs s) s
  (List.range (Lrd.p d)).foldl (fun s q =>
    let counts := (List.range (Lrd.epp d)).map (fun j =>
      (placed.filter (fun a => decide (a.1.2.1 = q * Lrd.epp d + j))).length)
    putGrans (Lrd.send d - (Lrd.p d - q) * Lrd.cmBytes d) (toGrans (Lrd.cmBytes d / 64) (countMessage s d counts)) s) s

def execRouteSelect (q : Nat) (s : State) : Answer := withLrd q 0x20 s routeSelectEffect

/-! ### Planning (R269 to R272) -/

/-- The counts of an accepted count message; none where it is rejected. -/
def acceptMessage (s : State) (d : Lrd) (i : Nat) : Option (List Nat) :=
  let r := loadBytes (Lrd.countbox d + i * Lrd.cmBytes d) (Lrd.cmBytes d) s
  let m := r.1
  let counts := (List.range (Lrd.epp d)).map (fun j => fieldAt m (64 + 2 * j) 2)
  if !r.2.1 && decide (fieldAt m 0 2 = 1) && decide (fieldAt m 2 2 = Lrd.layer d)
      && decide (fieldAt m 4 4 = s.herd.frame % 2 ^ 32) && decide (fieldAt m 8 1 = i) && decide (fieldAt m 10 2 = Lrd.epp d)
      && decide (counts.sum = fieldAt m 12 4) then some counts
  else none

/-- A fresh hot pool of a layer, with pins that are kept. -/
def freshPool (d : Lrd) (pins : List Nat) : HotPool :=
  { hotSlots := Lrd.hotSlots d, partBytes := Lrd.partBytes d, imagePart := Lrd.imagePart d, woff := Lrd.woff d
    coldBase := Lrd.coldBase d, hotBase := Lrd.hotBase d
    slots := (List.range (Lrd.hotSlots d)).map (fun j =>
      { expert := if Lrd.coldBase d = 0 then some j else none, stamp := 0 })
    pins, toEmpty := [], lens := [], fetched := [], dropped := [], counts := [], rejected := [], frame := 0
    landing := [] }

/-- The pool that a ROUTE_PLAN finds: created at the first, and afresh where a parameter differs (R271). -/
def planPool (ctx : Nat) (d : Lrd) (s : State) : HotPool :=
  match (ctxAt s ctx).bind (fun c => tabGet c.hotPools (Lrd.layer d)) with
  | some h =>
    if h.hotSlots = Lrd.hotSlots d ∧ h.partBytes = Lrd.partBytes d ∧ h.coldBase = Lrd.coldBase d
        ∧ h.hotBase = Lrd.hotBase d then { h with imagePart := Lrd.imagePart d, woff := Lrd.woff d }
    else freshPool d h.pins
  | none => freshPool d []

def HotPool.slotOf (h : HotPool) (j : Nat) : Option Nat := h.slots.findIdx? (fun x => x.expert == some j)

/-- The slot a fetch takes: the lowest empty one, else the oldest whose expert is neither pinned nor used in this frame. -/
def HotPool.victim (h : HotPool) (lens : List Nat) : Option Nat :=
  match h.slots.findIdx? (fun x => x.expert.isNone) with
  | some i => some i
  | none =>
    (h.slots.zipIdx.foldl (fun (b : Option (HotSlot × Nat)) x =>
      let j := x.1.expert.getD 0
      if h.pins.contains j || decide (lens.getD j 0 ≠ 0) then b
      else match b with
        | none => some x
        | some y => if x.1.stamp < y.1.stamp then some x else b) none).map (·.2)

/-- One expert fetched into a slot; the answer says whether another was evicted. -/
def HotPool.fetch (h : HotPool) (i j frame : Nat) : Bool × HotPool :=
  (((h.slots[i]?).bind (·.expert)).isSome,
   { h with slots := h.slots.set i { expert := some j, stamp := frame }, fetched := h.fetched ++ [j] })

/-- What the misses of a plan come to. -/
structure PlanOut where
  pool : HotPool
  evicted : Nat
  beyond : Bool
  coldDrops : Nat
  fullDrops : Nat

/-- Slots that a fetch could take. -/
def HotPool.available (h : HotPool) (lens : List Nat) : Nat :=
  (h.slots.filter (fun x => match x.expert with
    | some j => !h.pins.contains j && decide (lens.getD j 0 = 0)
    | none => true)).length

/-- Pinned experts that are not resident are fetched ahead of every miss, as far as a slot is left for each of the `needed`
misses: such a fetch never causes a drop (R279; log entry 73). -/
def planPins (lens : List Nat) (frame needed : Nat) : List Nat → PlanOut → PlanOut
  | [], o => o
  | j :: r, o =>
    if o.pool.available lens ≤ needed then o
    else
      match o.pool.victim lens with
      | none => o
      | some i =>
        let (ev, p) := o.pool.fetch i j frame
        planPins lens frame needed r { o with pool := p, evicted := o.evicted + bitNat ev }

/-- Misses in their order, with CAP left and POLICY: one that finds no slot is a pool-full drop under either policy (R272). -/
def planMisses (lens : List Nat) (policy frame : Nat) : List Nat → (cap : Nat) → PlanOut → PlanOut
  | [], _, o => o
  | j :: r, cap, o =>
    let drop (o : PlanOut) : PlanOut := { o with pool := { o.pool with dropped := o.pool.dropped ++ [j] } }
    match o.pool.victim lens with
    | none => planMisses lens policy frame r cap (drop { o with fullDrops := o.fullDrops + 1 })
    | some i =>
      if cap = 0 ∧ policy = 1 then
        planMisses lens policy frame r cap (drop { o with coldDrops := o.coldDrops + 1 })
      else
        let (ev, p) := o.pool.fetch i j frame
        planMisses lens policy frame r (cap - 1)
          { o with pool := p, evicted := o.evicted + bitNat ev, beyond := o.beyond || decide (cap = 0) }

/-- Copies of the experts fetched: the COLD_FETCH entries of the groups that the command publishes (R273; log entry 73). -/
def planLanding (s : State) (x : Queue) (c : Cmd) (fetched : List Nat) : List (Nat × Nat × Nat) :=
  (((progAt s x.ctx x.program).map (·.fills)).getD []).filterMap (fun f =>
    if f.kind = 4 ∧ f.engine = .te ∧ fetched.contains f.source = true ∧ c.body 48 2 ≤ f.group ∧ f.group < c.body 48 2 + c.body 50 2
    then some (f.source, f.queue, f.cmd) else none)

/-- The local experts that a pin names are resident, and their fetches have completed. -/
def pinsResident (p : HotPool) (first n : Nat) : Bool :=
  decide (p.coldBase = 0) || (List.range n).all (fun i => p.slots.any (fun k => k.expert == some (first + i))
    && !p.landing.any (fun l => l.1 == first + i))

/-- EXPERT_RESIDENCY commands whose pinned experts have all become resident complete (R279). -/
def settlePins (s : State) : State :=
  s.cmds.foldl (fun s c =>
    if c.opcode = 0x10 ∧ c.phase = .running ∧ fieldAt c.desc 17 1 = 1 then
      match (ctxAt s c.ctx).bind (fun x => tabGet x.hotPools (fieldAt c.desc 18 2)) with
      | some p => if pinsResident p (fieldAt c.desc 20 2) (fieldAt c.desc 22 2) then finishOk c.order 0 s else s
      | none => s
    else s) s

/-- A copy that a fetch waits for has retired. -/
def landCopy (ctx q cmd : Nat) (s : State) : State :=
  settlePins (updCtx ctx (fun c => { c with hotPools := c.hotPools.map (fun (h : Nat × HotPool) =>
    (h.1, { h.2 with landing := h.2.landing.filter (fun l => !(l.2 == (q, cmd))) })) }) s)

/-- What ROUTE_PLAN does. -/
def routePlanEffect (x : Queue) (c : Cmd) (d : Lrd) (s : State) : State :=
  let lay := Lrd.layer d
  let epp := Lrd.epp d
  let msgs := (List.range (Lrd.p d)).map (fun i => acceptMessage s d i)
  let rejected := (List.range (Lrd.p d)).filter (fun i => (msgs.getD i none).isNone)
  let s := rejected.foldl (fun s i => recordErr { blankErr 17 with ctx := x.ctx, engine := 2, detail := i } s) s
  let counts := msgs.map (fun m => m.getD (List.replicate epp 0))
  let lens := (List.range epp).map (fun j => (counts.map (fun c => c.getD j 0)).sum)
  let fr := s.herd.frame
  let h := planPool x.ctx d s
  let h := { h with fetched := [], dropped := [], counts, rejected, frame := fr
                    slots := h.slots.map (fun z => match z.expert with
                      | some j => if lens.getD j 0 ≠ 0 then { z with stamp := fr } else z
                      | none => z) }
  let missing (p : HotPool) (j : Nat) : Bool := (p.slotOf j).isNone
  let pins := (List.range epp).filter (fun j => h.pins.contains j && missing h j)
  let (cap, policy) := (((ctxAt s x.ctx).bind (fun c => tabGet c.residency lay))).getD (8, 0)
  let wanting := (List.range epp).filter (fun j => decide (lens.getD j 0 ≠ 0) && missing h j)
  let needed := (wanting.filter (fun j => !h.pins.contains j)).length
  let o := planPins lens fr (if policy = 1 then min cap needed else needed) pins
    { pool := h, evicted := 0, beyond := false, coldDrops := 0, fullDrops := 0 }
  let misses := ((List.range epp).filter (fun j => decide (lens.getD j 0 ≠ 0) && missing o.pool j)).mergeSort
    (fun a b => decide (lens.getD b 0 < lens.getD a 0 ∨ lens.getD a 0 = lens.getD b 0 ∧ a ≤ b))
  let o := planMisses lens policy fr misses cap o
  let final := (List.range epp).map (fun j => if o.pool.dropped.contains j then 0 else lens.getD j 0)
  let s := updCtx x.ctx (fun k => { k with hotPools := tabSet k.hotPools lay { o.pool with
    lens := final, landing := planLanding s x c o.pool.fetched } }) s
  let s := o.pool.slots.zipIdx.foldl (fun s z => match z.1.expert with
    | some j => (Lrd.hotBase d).foldl (fun s b =>
        putGran (b + z.2 * Lrd.partBytes d) { payload := slice (natLe 4 (final.getD j 0)) 0 64, tags := List.replicate 8 0 } s) s
    | none => s) s
  let hits := (List.range epp).filter (fun j => decide (lens.getD j 0 ≠ 0) && !missing h j)
  let s := routeBump x.ctx lay 2 o.coldDrops (routeBump x.ctx lay 3 o.fullDrops
    (routeBump x.ctx lay 5 (lens.filter (· == 0)).length (routeBump x.ctx lay 7 hits.length
    (routeBump x.ctx lay 8 wanting.length (routeBump x.ctx lay 9 o.pool.fetched.length
    (routeBump x.ctx lay 10 o.evicted (routeBump x.ctx lay 15 rejected.length (bump 7 0 (tierScope x.ctx) o.evicted s))))))))
  settlePins (if o.beyond then requestSlip (nextTick s) 6 0xFF 0xFFFF (routeBump x.ctx lay 11 1 s) else s)

def execRoutePlan (q : Nat) (s : State) : Answer := withLrd q 0x21 s routePlanEffect

/-! ### Scatter and gather (R274, R275) -/

def layerPool (s : State) (ctx : Nat) (d : Lrd) : Option HotPool := (ctxAt s ctx).bind (fun c => tabGet c.hotPools (Lrd.layer d))

/-- The rows of a participant's block: local expert and position in its segment, in block order. -/
def blockRowsOf (h : HotPool) (epp i : Nat) : List (Nat × Nat) :=
  (List.range epp).flatMap (fun j =>
    let before := ((h.counts.take i).map (fun c => c.getD j 0)).sum
    (List.range ((h.counts.getD i []).getD j 0)).map (fun n => (j, before + n)))

def routeScatterEffect (x : Queue) (_ : Cmd) (d : Lrd) (s : State) : State :=
  match layerPool s x.ctx d with
  | none => s
  | some h =>
    let parts := if Lrd.split d then Lrd.hotBase d else (Lrd.hotBase d).take 1
    (List.range (Lrd.p d)).foldl (fun s i =>
      (blockRowsOf h (Lrd.epp d) i).zipIdx.foldl (fun s r =>
        match h.slotOf r.1.1, h.dropped.contains r.1.1 with
        | some slot, false =>
          let (gs, s) := loadGrans (Lrd.igr d) (Lrd.inbox d + (i * Lrd.blockRows d + r.2) * Lrd.igr d * 64) s
          parts.foldl (fun s b => putGrans (b + slot * Lrd.partBytes d + 64 + r.1.2 * Lrd.igr d * 64) gs s) s
        | _, _ => s) s) s

def execRouteScatter (q : Nat) (s : State) : Answer := withLrd q 0x22 s routeScatterEffect

/-- The header of a return block. -/
def returnHeader (s : State) (d : Lrd) (h : HotPool) (i rows : Nat) : List Byte :=
  let bits := h.dropped.foldl (fun n j => n + 2 ^ j) 0
  natLe 4 s.herd.frame ++ natLe 2 (Lrd.layer d) ++ natLe 1 (bitNat (h.rejected.contains i)) ++ natLe 1 0 ++ natLe 4 rows
  ++ natLe 52 0 ++ natLe 512 bits

/-- The output row of an expert at a segment position: whole from part 0, or its twentieth from each part. -/
def outputRow (d : Lrd) (slot pos : Nat) (s : State) : List Granule × State :=
  let at_ (b : Nat) := b + slot * Lrd.partBytes d + 64 + Lrd.p d * Lrd.c d * Lrd.igr d * 64 + pos * Lrd.ogr d * 64
  if Lrd.split d then
    (Lrd.hotBase d).zipIdx.foldl (fun (acc : List Granule × State) b =>
      let (gs, s) := loadGrans (Lrd.ogr d / 20) (at_ b.1 + b.2 * (Lrd.ogr d / 20) * 64) acc.2
      (acc.1 ++ gs, s)) ([], s)
  else loadGrans (Lrd.ogr d) (at_ ((Lrd.hotBase d).headD 0)) s

/-- Rows of a peer for a layer of a held barrier are returned poisoned (Table 13-4a). -/
def peerHeld (s : State) (ctx : Nat) (d : Lrd) (i : Nat) : Bool :=
  decide (i ≠ Lrd.own s d)
  && (((ctxAt s ctx).bind (·.barrier)).map (fun b => b.held && b.layers.contains (Lrd.layer d))).getD false

def routeGatherEffect (x : Queue) (_ : Cmd) (d : Lrd) (s : State) : State :=
  match layerPool s x.ctx d with
  | none => s
  | some h =>
    (List.range (Lrd.p d)).foldl (fun s i =>
      let rows := blockRowsOf h (Lrd.epp d) i
      let base := Lrd.outbox d + i * Lrd.rbBytes d
      let s := putGrans base (toGrans 9 (returnHeader s d h i rows.length)) s
      rows.zipIdx.foldl (fun s r =>
        match h.slotOf r.1.1, h.dropped.contains r.1.1 with
        | some slot, false =>
          if peerHeld s x.ctx d i then
            bumpWeights x.ctx 11 1 (putGrans (base + 576 + r.2 * Lrd.ogr d * 64) (List.replicate (Lrd.ogr d) poisonGran) s)
          else
            let (gs, s) := outputRow d slot r.1.2 s
            putGrans (base + 576 + r.2 * Lrd.ogr d * 64) gs s
        | _, _ => s) s) s

def execRouteGather (q : Nat) (s : State) : Answer := withLrd q 0x23 s routeGatherEffect

/-! ### Combine (R276, R277) -/

/-- A returned block's header as a source reads it: MISMATCH, whether FRAME and LAYER are its own, and DROPPED. -/
structure RetHead where
  mismatch : Bool
  own : Bool
  dropped : Nat

def retHead (s : State) (d : Lrd) (q : Nat) : RetHead :=
  let r := loadBytes (Lrd.ret d + q * Lrd.rbBytes d) 576 s
  { mismatch := bitOf (fieldAt r.1 6 1) 0
    own := !r.2.1 && decide (fieldAt r.1 0 4 = s.herd.frame % 2 ^ 32) && decide (fieldAt r.1 4 2 = Lrd.layer d)
    dropped := fieldAt r.1 64 512 }

/-- An assignment record as ROUTE_COMBINE reads it. -/
structure RouteRec where
  token : Nat
  expert : Nat
  slot : Nat
  weight : F32

/-- The records before a layer's output, as many as their count says. -/
def routeRecs (s : State) (d : Lrd) : List RouteRec :=
  (List.range (fieldAt (peek s (Lrd.assign d - 64) 4) 0 4)).map (fun i =>
    let b := peek s (Lrd.assign d + 16 * i) 16
    { token := fieldAt b 0 4, expert := fieldAt b 4 2, slot := fieldAt b 8 4, weight := BitVec.ofNat 32 (fieldAt b 12 4) })

/-- Values of a row in B16 or F32, and whether a granule is poisoned. -/
def wideRow (f n a vals : Nat) (s : State) : (List F32 × Bool) × State :=
  let (gs, s) := loadGrans n a s
  (((rowValues f vals gs).map (·.1), gs.any isPoison), s)

/-- The weighted sum of one row, and whether its renormalisation sum was zero or not finite. A sum that is neither and not
above zero leaves the weights unchanged as well. -/
def combineRow (d : Lrd) (acc : List F32) (as : List (RouteRec × List F32)) : List F32 × Bool :=
  let z := as.foldl (fun z a => addF32 z a.1.weight) 0
  let good := !isNonFinite z && ltF32 0 z
  (as.foldl (fun acc a =>
    let w := if Lrd.renorm d && good then divF32 a.1.weight z else a.1.weight
    acc.zipWith (fun x y => addF32 x (mulF32 w y)) a.2) acc,
   Lrd.renorm d && (isNonFinite z || (!ltF32 0 z && !ltF32 z 0)))

/-- Granules of an output row in OFMT. -/
def outGrans (d : Lrd) (vs : List F32) : List Granule :=
  if Lrd.ofmt d = 10 then (chunksOf (vs.length + 1) 32 (vs.map (fun v => (v, false)))).map toB16Gran
  else toGrans (Lrd.outGr d) (vs.flatMap (fun v => natLe 4 v.toNat))

/-- What one row of ROUTE_COMBINE gives: its granules, whether it is a stray, whether its renormalisation was degenerate. -/
structure Combined where
  row : List Granule
  stray : Bool
  degenerate : Bool

def combineToken (c : Cmd) (d : Lrd) (heads : List RetHead) (recs : List RouteRec) (t : Nat) (s : State) : Combined × State :=
  let mine := recs.filter (fun r => r.token == t)
  let host (r : RouteRec) := r.expert / max 1 (Lrd.epp d)
  let head (r : RouteRec) := heads.getD (host r) { mismatch := false, own := false, dropped := 0 }
  let live := mine.filter (fun r => !bitOf (head r).dropped (r.expert % max 1 (Lrd.epp d)))
  let (rows, s) := live.foldl (fun (acc : List (RouteRec × List F32 × Bool) × State) r =>
    let (v, s) := wideRow (Lrd.yfmt d) (Lrd.ogr d)
      (Lrd.ret d + host r * Lrd.rbBytes d + 576 + r.slot * Lrd.ogr d * 64) (Lrd.vals d) acc.2
    (acc.1 ++ [(r, v)], s)) ([], s)
  let (res, s) := if Lrd.resid d then
      wideRow (Lrd.ofmt d) (Lrd.outGr d) (Lrd.residAddr d + t * Lrd.outGr d * 64) (Lrd.vals d) s
    else ((List.replicate (Lrd.vals d) 0, false), s)
  let (score, s) := scoreRow c d t s
  if score.valid && score.poison || res.2 || mine.any (fun r => (head r).mismatch || !(head r).own)
      || rows.any (fun r => r.2.2) then
    ({ row := List.replicate (Lrd.outGr d) poisonGran, stray := false, degenerate := false }, s)
  else
    let (vs, degenerate) := combineRow d res.1 (rows.map (fun r => (r.1, r.2.1)))
    ({ row := outGrans d vs, stray := score.valid && live.isEmpty && decide (t < 65536), degenerate }, s)

/-- ROUTE_COMBINE forms a row for every row of the group; those from 65,536 on are not routed and have no record. -/
def routeCombineEffect (x : Queue) (c : Cmd) (d : Lrd) (s : State) : State :=
  let (n, s) := groupRows c d s
  let heads := (List.range (Lrd.p d)).map (fun q => retHead s d q)
  let recs := routeRecs s d
  let lay := Lrd.layer d
  let odd := (List.range (Lrd.p d)).filter (fun q =>
    let h := heads.getD q { mismatch := false, own := false, dropped := 0 }
    (h.mismatch || !h.own) && recs.any (fun r => r.expert / max 1 (Lrd.epp d) == q && decide (r.token < n)))
  let s := odd.foldl (fun s q => recordErr { blankErr 18 with ctx := x.ctx, engine := 2, detail := q } (routeBump x.ctx lay 16 1 s)) s
  (List.range n).foldl (fun s t =>
    let (o, s) := combineToken c d heads recs t s
    let s := if o.stray then routeBump x.ctx lay 4 1 s else s
    let s := if o.degenerate then routeBump x.ctx lay 14 1 s else s
    putGrans (Lrd.out d + t * Lrd.outGr d * 64) o.row s) s

def execRouteCombine (q : Nat) (s : State) : Answer := withLrd q 0x24 s routeCombineEffect

/-! ### Fill groups (R116, R117, R273) -/

/-- The part of a slot that a target command uses. -/
def fillPart (e : Engine) (c : Cmd) : Nat :=
  match e with
  | .ge => if c.coreFirst < c.lastUnit .ge ∧ c.coreFirst / 1600 = (c.lastUnit .ge - 1) / 1600 then c.coreFirst / 1600 else 0
  | .te => if c.lastUnit .te = c.coreFirst + 1 ∧ c.coreFirst < 20 then c.coreFirst else 0
  | _ => 0

/-- TASKS of a command replaced; the reserved bits beside it stay. -/
def withTasks (c : Cmd) (n : Nat) : Cmd := splice c 20 (natLe 3 n)

/-- One entry written into its command, from the template. -/
def fillCommand (h : HotPool) (f : Fill) (e : Engine) (template now : Cmd) : Cmd :=
  let len := h.lens.getD f.source 0
  let slot := (h.slotOf f.source).getD 0
  let part := fillPart e template
  let base := h.hotBase.getD part 0 + slot * h.partBytes
  match f.kind with
  | 1 => withTasks now ((len + f.param - 1) / max 1 f.param)
  | 2 => splice now (32 + f.param) (natLe 8 (base + 64))
  | 3 => withTasks now (if len = 0 then 0 else template.tasks)
  | 4 =>
    if h.fetched.contains f.source ∧ !h.dropped.contains f.source then
      withTasks (splice (splice now 32 (natLe 8 (h.coldBase + (f.source * 20 + part) * h.imagePart))) 40
        (natLe 8 (base + h.woff))) template.tasks
    else withTasks now 0
  | _ => now

/-- The ROUTE_PLAN of a program that publishes a group: its queue and its place in the list. -/
def groupPlan (s : State) (p : Program) (g : Nat) : Option (Queue × Nat × Cmd) :=
  p.queues.findSome? (fun k =>
    if k.1 = .se then (queueAt s k.1 k.2).bind (fun x => (x.list.zipIdx.find? (fun (c : Cmd × Nat) =>
      decide (c.1.opcode = 0x21 ∧ c.1.body 48 2 ≤ g ∧ g < c.1.body 48 2 + c.1.body 50 2))).map (fun c => (x, c.2, c.1)))
    else none)

/-- The layer of that command, from its descriptor as it stands. -/
def groupLayer (s : State) (p : Program) (g : Nat) : Option Nat :=
  (groupPlan s p g).map (fun c => Lrd.layer (peek s (c.2.2.body 32 8) 512))

/-- That command runs and has not retired. -/
def planRunning (s : State) (p : Program) (g : Nat) : Bool :=
  ((groupPlan s p g).map (fun c => c.1.state == 3 && c.1.head == c.2.1)).getD false

/-- FILL_GROUP_WRITE: the entries of a group written in place from the layer's result of the current frame, then the
group's mark (R117, R273). -/
def execFillGroupWrite (ctx program group : Nat) (s : State) : Answer :=
  .next (match progAt s ctx program with
    | none => s
    | some p =>
      match (groupLayer s p group).bind (fun l => (ctxAt s ctx).bind (fun c => tabGet c.hotPools l)) with
      | none => s
      | some h =>
        if p.marks.contains group ∨ h.frame ≠ s.herd.frame ∨ h.lens.isEmpty ∨ planRunning s p group then s
        else
          let s := (p.fills.filter (fun f => f.group == group)).foldl (fun s f =>
            updQueue f.engine f.queue (fun x => { x with list := x.list.modify f.cmd (fun (now : Cmd) =>
              fillCommand h f f.engine (x.template.getD f.cmd []) now) }) s) s
          updProg ctx program (fun p => { p with marks := p.marks ++ [group] }) s)

end Sys2Proof.Machine
end

