-- ==== Sys2Proof/Machine/Fab.lean ====
section
/-! DEFINITION. The Fabric Engine and the transport's receiving side: commands, targets, responses, exchanges, coherence in
a fold, retransmission (file 16; R339, R420, R487). -/
namespace Sys2Proof.Machine

/-! ### Bodies (R381 to R384, R393, R394) -/

/-- A local address of an FE body: a multiple of 64 in T1 or the Store, with `n` granules. -/
def feLocalOk (a n : Nat) : Bool := decide (a % 64 = 0) && inT1Store a (64 * n)

/-- A remote address: a multiple of 64, unless told otherwise, in 56 bits; the module's own is local. -/
def feRemoteOk (s : State) (a n align : Nat) : Bool :=
  decide (a < 2 ^ 56) && decide (a % align = 0)
  && (decide (devField a ≠ devOf s) || inT1Store (localField a) (64 * n))

def getBodyOk (s : State) (c : Cmd) : Bool :=
  let n := c.body 48 4
  let half := bitOf (c.body 52 1) 1
  tasksOk c 1 && decide (1 ≤ n ∧ n ≤ 268435456) && decide (c.body 52 1 < 4) && decide (leNat (slice c 53 11) = 0)
  && (!half || decide (n = 1)) && feRemoteOk s (c.body 32 8) (if half then 0 else n) (if half then 32 else 64)
  && feLocalOk (c.body 40 8) n

def putBodyOk (s : State) (c : Cmd) : Bool :=
  let n := c.body 48 4
  tasksOk c 1 && decide (1 ≤ n ∧ n ≤ 268435456) && decide (leNat (slice c 52 12) = 0)
  && feRemoteOk s (c.body 32 8) n 64 && feLocalOk (c.body 40 8) n

def atomicOp (c : Cmd) : Nat := bitsOf (c.body 32 8) 59 56
def atomicRemote (c : Cmd) : Nat := c.body 32 8 % 2 ^ 56

def atomicBodyOk (s : State) (c : Cmd) : Bool :=
  let op := atomicOp c
  tasksOk c 1 && decide (1 ≤ op ∧ op ≤ 7) && decide (bitsOf (c.body 32 8) 63 60 = 0)
  && (decide (op = 3) || decide (c.body 48 8 = 0)) && (decide (c.body 56 8 = 0) || feLocalOk (c.body 56 8) 1)
  && feRemoteOk s (atomicRemote c) 0 8
  && (decide (devField (atomicRemote c) ≠ devOf s) || inT1Store (localField (atomicRemote c)) 8)

def sendBodyOk (c : Cmd) : Bool :=
  tasksOk c 1 && decide (c.body 32 2 < 16384) && decide (c.body 34 1 < 64) && decide (c.body 35 1 = 0)
  && decide (1 ≤ c.body 36 4 ∧ c.body 36 4 ≤ 8) && feLocalOk (c.body 40 8) (c.body 36 4) && decide (leNat (slice c 48 16) = 0)

/-- MBOX: the event is one of the `count` from `base` (R384). -/
def mboxBodyIn (base count : Nat) (c : Cmd) : Bool :=
  let act := c.body 32 1
  let n := c.body 36 4
  let ev := c.body 34 2
  tasksOk c 1 && decide (1 ≤ act ∧ act ≤ 3) && decide (c.body 33 1 < 64) && decide (leNat (slice c 48 16) = 0)
  && (if act = 1 then decide (1 ≤ n ∧ n ≤ 4096) && decide (2 ^ Nat.log2 n = n) && feLocalOk (c.body 40 8) (9 * n)
        && decide (base ≤ ev ∧ ev < base + count)
      else decide (c.body 40 8 = 0) && (decide (act = 2) || decide (n = 0)))

def mboxBodyOk (p : Program) (c : Cmd) : Bool := mboxBodyIn p.eventBase p.eventCount c

/-- An exchange as its descriptor gives it: key, own index, devices, what is sent to each and received from each. -/
structure ExSpec where
  key : Nat
  own : Nat
  devs : List Nat
  sends : List (Nat × Nat)
  recvs : List (Nat × Nat)

/-- The collective descriptor at an address; none where it has a defect (R393). -/
def readCd (s : State) (a : Nat) : Option ExSpec :=
  let h := peek s a 192
  let p := fieldAt h 2 1
  let devs := (List.range (min 64 p)).map (fun i => fieldAt h (64 + 2 * i) 2)
  let rows (off : Nat) := (List.range (min 64 p)).map (fun i => peek s (a + off + 16 * i) 16)
  let ends := rows 192 ++ rows (192 + 16 * p)
  if feLocalOk a 3 && decide (fieldAt h 0 2 = 1) && decide (1 ≤ p ∧ p ≤ 64) && decide (fieldAt h 3 1 = 0)
      && decide (16384 ≤ fieldAt h 4 2) && decide (leNat (slice h 6 58) = 0) && devs.all (fun d => decide (d < 16384))
      && devs.contains (devOf s) && decide (leNat (slice h (64 + 2 * p) (128 - 2 * p)) = 0)
      && inT1Store a (192 + 32 * p)
      && ends.all (fun b => decide (fieldAt b 8 4 ≤ 268435456) && decide (fieldAt b 12 4 = 0)
          && (decide (fieldAt b 8 4 = 0) || feLocalOk (fieldAt b 0 8) (fieldAt b 8 4))) then
    some { key := fieldAt h 4 2, own := (devs.findIdx? (fun d => d == devOf s)).getD 0, devs
           sends := (rows 192).map (fun b => (fieldAt b 0 8, fieldAt b 8 4))
           recvs := (rows (192 + 16 * p)).map (fun b => (fieldAt b 0 8, fieldAt b 8 4)) }
  else none

def exchangeBodyOk (s : State) (c : Cmd) : Bool :=
  tasksOk c 1 && decide (leNat (slice c 40 24) = 0) && (readCd s (c.body 32 8)).isSome

/-- The part of a ROUTE_EXCHANGE's body rule that the list alone decides (R133). -/
def routeExchangeBodyStatic (c : Cmd) : Bool :=
  decide (c.tasks ≤ 1) && decide (c.body 40 1 ≤ 2) && decide (leNat (slice c 41 23) = 0) && decide (c.body 32 8 % 64 = 0)
  && inT1Store (c.body 32 8) 512

def routeExchangeBodyOk (s : State) (c : Cmd) : Bool :=
  let a := c.body 32 8
  routeExchangeBodyStatic c && ((loadBytes a 512 s).2.1 || lrdOk s (peek s a 512))

/-- The exchange of a routing phase (Table 16-8). -/
def routeSpec (s : State) (d : Lrd) (phase : Nat) : ExSpec :=
  let p := Lrd.p d
  let cm := Lrd.cmBytes d
  let blk := Lrd.blockRows d * Lrd.igr d * 64
  let ix := List.range p
  let (sends, recvs) :=
    match phase with
    | 0 => (ix.map (fun i => (Lrd.send d - (p - i) * cm, cm / 64)), ix.map (fun i => (Lrd.countbox d + i * cm, cm / 64)))
    | 1 => (ix.map (fun i => (Lrd.send d + i * blk, fieldAt (peek s (Lrd.send d - (p - i) * cm) 64) 12 4 * Lrd.igr d)),
            ix.map (fun i => (Lrd.inbox d + i * blk, blk / 64)))
    | _ => (ix.map (fun i => (Lrd.outbox d + i * Lrd.rbBytes d,
              9 + fieldAt (peek s (Lrd.outbox d + i * Lrd.rbBytes d) 64) 8 4 * Lrd.ogr d)),
            ix.map (fun i => (Lrd.ret d + i * Lrd.rbBytes d, Lrd.rbBytes d / 64)))
  { key := 4 * Lrd.layer d + phase, own := Lrd.own s d, devs := Lrd.devs d, sends, recvs }

/-! ### GET, PUT, ATOMIC (R378, R382, R383, R397) -/

/-- A neighbour's granule in the fold cache. -/
def copyAt (s : State) (home a : Nat) : Option FoldCopy := s.fab.copies.find? (fun c => c.home == home && c.addr == a)

/-- Die and set of a copy (the set by the low granule bits: PRESUMED). -/
def copySet (a : Nat) : Nat := a / 2048 % 8 * 16384 + a / 64 % 16384

/-- A copy kept: the least recently used of 8 ways is replaced. -/
def keepCopy (home a : Nat) (g : Granule) (s : State) : State :=
  let rest := s.fab.copies.filter (fun c => !(c.home == home && c.addr == a))
  let ways := rest.filter (fun c => copySet c.addr == copySet a)
  let old := (ways.foldl (fun (m : Option FoldCopy) c => match m with
    | none => some c
    | some v => if c.stamp < v.stamp then some c else some v) none)
  let rest := match old with
    | some v => if 8 ≤ ways.length then rest.filter (fun c => !(c.home == v.home && c.addr == v.addr)) else rest
    | none => rest
  { s with fab := { s.fab with
    copies := { home, addr := a, stamp := s.fab.stamp, data := g } :: rest, stamp := s.fab.stamp + 1 } }

/-- Devices of the fold (R366). -/
def neighbours (s : State) : List Nat :=
  if foldCount s.boot.straps.linksplit = 0 then [] else (neighbourSlots s).map (slotDev s)

/-- One half in its place, the rest zero, or poison (R382, R413). -/
def halfGran (g : Granule) (h : Nat) : Granule :=
  if halfPoison g h then poisonGran
  else
    let p := halfOf g h
    { payload := splice (List.replicate 64 0) (32 * h) p.1, tags := splice (List.replicate 8 0) (4 * h) p.2 }

/-- One half of a granule through the peck path (R340, R382). -/
def peckGran (a : Nat) (s : State) : Granule × State :=
  if placeOf a = .t1 then (halfGran (pendingGran s a) (a / 32 % 2), bump 10 2 (channelOf s a / 64) 1 s)
  else
    let (g, s) := loadGran (a / 64 * 64) s
    (halfGran g (a / 32 % 2), s)

def loadPacket (s : State) (ctx dev addr len : Nat) (gen cache : Bool) : Packet :=
  { blankPacket 1 (devOf s) dev with pflags := 1 + 4 * bitNat gen + 16 * bitNat cache, ctx, len, addr }

/-- The requests of a GET, 8 granules each. -/
def getRequests (o : Owner) (ctx dev : Nat) (gen : Bool) : (fuel n remote loc : Nat) → State → State
  | 0, _, _, _, s => s
  | k + 1, n, remote, loc, s =>
    if n = 0 then s
    else
      let m := min 8 n
      getRequests o ctx dev gen k (n - m) (remote + 64 * m) (loc + 64 * m)
        (issue o (.loadTo loc false) (loadPacket s ctx dev remote m gen false) s)

/-- One granule of a GET with CACHE = 1 of a neighbour. -/
def getCached (o : Owner) (ctx dev : Nat) (gen : Bool) (remote loc : Nat) (s : State) : State :=
  match copyAt s dev remote with
  | some c => pcount 40 dev 1 (loadPacket s ctx dev remote 1 gen true) (putGran loc c.data { s with fab := { s.fab with
      stamp := s.fab.stamp + 1
      copies := s.fab.copies.map (fun x => if x.home = dev ∧ x.addr = remote then { x with stamp := s.fab.stamp } else x) } })
  | none => issue o (.loadCache loc) (loadPacket s ctx dev remote 1 gen true) (pcount 41 dev 1 (loadPacket s ctx dev remote 1 gen true) s)

def execGet (q : Nat) (s : State) : Answer :=
  .next (match workHead s .fe q 0x10 with
    | none => s
    | some (x, c) =>
      let s := markWorked .fe q s
      let n := c.body 48 4
      let r := c.body 32 8
      let loc := c.body 40 8
      let dev := devField r
      let a := localField r
      let half := bitOf (c.body 52 1) 1
      if dev = devOf s then
        if half then
          let (g, s) := peckGran a s
          putGran loc g s
        else
          let (gs, s) := loadGrans n a s
          putGrans loc gs s
      else if half then
        issue (.queue .fe q) (.loadTo loc true) { loadPacket s x.ctx dev a 1 c.genFlag false with aux := 1 } s
      else if bitOf (c.body 52 1) 0 ∧ foldCacheEn s ∧ (neighbours s).contains dev then
        (List.range n).foldl (fun s i => getCached (.queue .fe q) x.ctx dev c.genFlag (a + 64 * i) (loc + 64 * i) s) s
      else getRequests (.queue .fe q) x.ctx dev c.genFlag n n a loc s)

def execPut (q : Nat) (s : State) : Answer :=
  .next (match workHead s .fe q 0x11 with
    | none => s
    | some (x, c) =>
      let n := c.body 48 4
      let (gs, s) := loadGrans n (c.body 40 8) (markWorked .fe q s)
      if devField (c.body 32 8) = devOf s then putGrans (localField (c.body 32 8)) gs s
      else storeRemote (.queue .fe q) x.ctx c.genFlag (c.body 32 8) (n + 1) gs s)

/-- The value an atomic leaves (Table 16-2). -/
def atomicValue (op old operand compare : Nat) : Nat :=
  match op with
  | 1 => (old + operand) % 2 ^ 64
  | 2 => operand
  | 3 => if old = compare then operand else old
  | 4 => old ||| operand
  | 5 => old &&& operand
  | 6 => max old operand
  | 7 => min old operand
  | _ => old

/-- An atomic on a granule: the old value, none where it is poisoned, and the granule it leaves. -/
def atomicGran (op a operand compare : Nat) (g : Granule) : Option Nat × Granule :=
  if isPoison g then (none, g)
  else
    let old := fieldAt g.payload (a % 64) 8
    (some old, { g with payload := splice g.payload (a % 64) (natLe 8 (atomicValue op old operand compare)) })

/-- A RESULT granule: the old value, or poison. -/
def resultGran (old : Option Nat) : Granule :=
  match old with
  | some v => { payload := slice (natLe 8 v) 0 64, tags := List.replicate 8 0 }
  | none => poisonGran

def execAtomic (q : Nat) (s : State) : Answer :=
  .next (match workHead s .fe q 0x12 with
    | none => s
    | some (x, c) =>
      let s := markWorked .fe q s
      let r := atomicRemote c
      let a := localField r
      let op := atomicOp c
      if devField r = devOf s then
        let (g, s) := loadGran (a / 64 * 64) s
        let (old, g') := atomicGran op a (c.body 40 8) (c.body 48 8) g
        let s := if old.isSome then putGran (a / 64 * 64) g' s else s
        if c.body 56 8 = 0 then s else putGran (c.body 56 8) (resultGran old) s
      else
        issue (.queue .fe q) (.atomic (c.body 56 8))
          { blankPacket 5 (devOf s) (devField r) with
            pflags := 1 + 4 * bitNat c.genFlag, ctx := x.ctx, addr := a, aux := op, operand := c.body 40 8
            control := natLe 8 (c.body 48 8) ++ natLe 8 0 } s)

/-! ### Mailboxes (R384) -/

def mailboxAt (s : State) (ctx m : Nat) : Option Mailbox := (ctxAt s ctx).bind (fun c => tabGet c.mailboxes m)

def updMailbox (ctx m : Nat) (g : Mailbox → Mailbox) (s : State) : State :=
  updCtx ctx (fun c => { c with mailboxes := tabUpd c.mailboxes m g }) s

/-- A message put into the next slot of a mailbox that has room. -/
def deliverMessage (ctx m src : Nat) (b : Mailbox) (gs : List Granule) (s : State) : State :=
  let slot := b.ring + b.delivered % b.slots * 576
  let head : Granule :=
    { payload := slice (natLe 2 src ++ natLe 1 gs.length ++ natLe 1 0 ++ natLe 4 b.delivered) 0 64, tags := List.replicate 8 0 }
  signalEvent b.event (updMailbox ctx m (fun b => { b with delivered := b.delivered + 1 }) (putGrans slot (head :: gs) s))

def Mailbox.full (b : Mailbox) : Bool := decide (b.slots ≤ b.delivered - b.released)

def fabricErr (status addr : Nat) (ctx : Nat) (s : State) : State :=
  recordErr { blankErr 14 with ctx, addr, detail := status } s

def execSend (q : Nat) (s : State) : Answer :=
  .next (match workHead s .fe q 0x13 with
    | none => s
    | some (x, c) =>
      let n := c.body 36 4
      let dev := c.body 32 2
      if dev = devOf s then
        match mailboxAt s x.ctx (c.body 34 1) with
        | none => fabricErr 1 0 x.ctx (markWorked .fe q s)
        | some b =>
          if b.full then s
          else
            let (gs, s) := loadGrans n (c.body 40 8) (markWorked .fe q s)
            deliverMessage x.ctx (c.body 34 1) dev b gs s
      else
        let (gs, s) := loadGrans n (c.body 40 8) (markWorked .fe q s)
        issue (.queue .fe q) .write
          { blankPacket 7 (devOf s) dev with
            pflags := 1 + 4 * bitNat c.genFlag, ctx := x.ctx, len := n, aux := c.body 34 1, granules := gs } s)

def execMbox (q : Nat) (s : State) : Answer :=
  .next (match workHead s .fe q 0x14 with
    | none => s
    | some (x, c) =>
      let s := markWorked .fe q s
      let m := c.body 33 1
      match c.body 32 1 with
      | 1 =>
        let b : Mailbox :=
          { program := x.program, event := c.body 34 2, slots := c.body 36 4, ring := c.body 40 8, delivered := 0
            released := 0 }
        updCtx x.ctx (fun k => { k with mailboxes := tabSet k.mailboxes m b }) s
      | 2 => updMailbox x.ctx m (fun b => { b with released := min b.delivered (b.released + c.body 36 4) }) s
      | _ => updCtx x.ctx (fun k => { k with mailboxes := tabDel k.mailboxes m }) s)

/-! ### Exchanges (R395, R396, R487) -/

def exchangeAt (s : State) (ctx key inst : Nat) : Option Exchange :=
  s.fab.exchanges.find? (fun e => e.ctx == ctx && e.key == key && e.inst == inst)

def updExchange (ctx key inst : Nat) (g : Exchange → Exchange) (s : State) : State :=
  { s with fab := { s.fab with exchanges := s.fab.exchanges.map (fun e =>
    if e.ctx = ctx ∧ e.key = key ∧ e.inst = inst then g e else e) } }

/-- Requests of an exchange towards a participant, by OP. -/
def exchangeOut (s : State) (ctx key inst d op : Nat) : Bool :=
  (s.fab.requests ++ s.fab.held).any (fun r => r.use == .exchange ctx key inst d && r.pkt.op == op)

def exchangePacket (s : State) (e : Exchange) (d op : Nat) : Packet :=
  { blankPacket op (devOf s) (e.devs.getD d 0) with
    pflags := vcOf op + 4 * bitNat ((((queueAt s .fe e.q).bind headOf).map Cmd.genFlag).getD false), ctx := e.ctx, operand := exchangeWord e.key e.inst e.own d }

/-- BLOCK packets of 8 granules each. -/
def sendBlocks (e : Exchange) (d addr : Nat) : (fuel : Nat) → List Granule → State → State
  | 0, _, s => s
  | k + 1, gs, s =>
    if gs.isEmpty then s
    else
      sendBlocks e d (addr + 512) k (gs.drop 8)
        (issue (.queue .fe e.q) (.exchange e.ctx e.key e.inst d)
          { exchangePacket s e d 10 with
            len := (gs.take 8).length, addr := addr, granules := gs.take 8 } s)

/-- BLOCK_END once every BLOCK to a participant is acknowledged (Table 16-5). -/
def maybeBlockEnd (ctx key inst d : Nat) (s : State) : State :=
  match exchangeAt s ctx key inst with
  | some e =>
    if e.sending.contains d ∧ !e.skipped.contains d ∧ !exchangeOut s ctx key inst d 10 then
      let s := updExchange ctx key inst (fun e => { e with
        sending := e.sending.filter (fun x => decide (x ≠ d)), ended := e.ended ++ [d] }) s
      issue (.queue .fe e.q) (.exchange ctx key inst d)
        { exchangePacket s e d 11 with control := natLe 4 ((e.sends.getD d (0, 0)).2) ++ natLe 12 0 } s
    else s
  | none => s

/-- The block for a participant whose READY gives the receive address. -/
def answerReady (ctx key inst d addr : Nat) (s : State) : State :=
  match exchangeAt s ctx key inst with
  | some e =>
    if e.sending.contains d ∨ e.ended.contains d ∨ e.acked.contains d ∨ e.skipped.contains d then s
    else
      let (a, n) := e.sends.getD d (0, 0)
      let (gs, s) := loadGrans n a s
      let s := updExchange ctx key inst (fun e => { e with sending := e.sending ++ [d] }) s
      maybeBlockEnd ctx key inst d (sendBlocks e d addr (n + 1) gs s)
  | none => s

/-- A participant marked unreachable is skipped, which is counted: nothing further is sent to it, and the first granule of its
receive area is poisoned (R487). -/
def skipParticipant (e : Exchange) (d : Nat) (s : State) : State :=
  let (a, n) := e.recvs.getD d (0, 0)
  let s := updExchange e.ctx e.key e.inst (fun e => { e with skipped := e.skipped ++ [d] }) s
  let s := { s with
    tally := { s.tally with skipped := s.tally.skipped + 1 }
    fab := { s.fab with held := s.fab.held.filter (fun r => r.use != .exchange e.ctx e.key e.inst d) } }
  if n = 0 then s else putPoison a 1 s

/-- Exchanges skip their participants that are marked unreachable. -/
def skipDead (s : State) : State :=
  s.fab.exchanges.foldl (fun s e => e.devs.zipIdx.foldl (fun s d =>
    if s.fab.unreachable.contains d.1 ∧ d.2 ≠ e.own ∧ !e.skipped.contains d.2
        ∧ !(e.acked.contains d.2 && (tabGet e.ends d.2).isSome) then skipParticipant e d.2 s else s) s) s

/-- Every condition of R395 that concerns the participants not skipped holds. -/
def exchangeDone (e : Exchange) : Bool :=
  (List.range e.devs.length).all (fun d =>
    e.skipped.contains d || (e.acked.contains d && (match tabGet e.ends d with
      | some n => decide (n ≤ tabNat e.got d)
      | none => false)))

/-- An exchange started: READY to every other participant, the own block copied, READYs that came early answered. -/
def startExchange (q ctx : Nat) (c : Cmd) (x : ExSpec) (s : State) : State :=
  let runs := ((ctxAt s ctx).map (fun k => tabNat k.exchangeRuns x.key)).getD 0
  let inst := if c.frameFlag then s.herd.frame % 2 ^ 32 else runs % 2 ^ 32
  let s := updCtx ctx (fun k => { k with exchangeRuns := tabSet k.exchangeRuns x.key (inst + 1) }) s
  let own := x.own
  let (sa, sn) := x.sends.getD own (0, 0)
  let (ra, rn) := x.recvs.getD own (0, 0)
  let e : Exchange :=
    { ctx, key := x.key, inst, q, own, devs := x.devs, sends := x.sends, recvs := x.recvs, sending := [], ended := [own]
      acked := [own], got := [(own, sn)], ends := [(own, sn)], skipped := [] }
  let (gs, s) := loadGrans sn sa s
  let s := putGrans ra (gs.take rn) s
  let s := if rn < sn then recordErr { blankErr 16 with ctx, engine := 4, queue := q, detail := x.key } s else s
  let s := skipDead { s with fab := { s.fab with exchanges := s.fab.exchanges ++ [e] } }
  let skipped := ((exchangeAt s ctx x.key inst).map (·.skipped)).getD []
  let s := (List.range x.devs.length).foldl (fun s d =>
    if d = own ∨ skipped.contains d then s
    else
      let (ra, rn) := x.recvs.getD d (0, 0)
      issue (.queue .fe q) (.exchange ctx x.key inst d)
        { exchangePacket s e d 9 with addr := ra, control := natLe 4 rn ++ natLe 12 0 } s) s
  let mine (p : Packet) : Bool := p.ctx == ctx && (Packet.key p) == x.key && (Packet.inst p) == inst
  let early := s.fab.readies.filter mine
  let s := { s with fab := { s.fab with readies := s.fab.readies.filter (fun p => !mine p) } }
  early.foldl (fun s p => answerReady ctx x.key inst (Packet.srcIndex p) p.addr s) s

def execExchange (q : Nat) (s : State) : Answer :=
  .next (match workHead s .fe q 0x15 with
    | none => s
    | some (x, c) =>
      match readCd s (c.body 32 8) with
      | some e => startExchange q x.ctx c e (markWorked .fe q s)
      | none => faultQueue .fe q 9 s)

def execRouteExchange (q : Nat) (s : State) : Answer :=
  .next (match workHead s .fe q 0x16 with
    | none => s
    | some (x, c) =>
      let (d, bad, s) := loadBytes (c.body 32 8) 512 s
      if bad then faultPoison .fe q s
      else if !lrdOk s d then faultQueue .fe q 9 s
      else startExchange q x.ctx c (routeSpec s d (c.body 40 1)) (markWorked .fe q s))

/-! ### Windows of a target (R386) -/

/-- The window kept for a source; none after 2 ms without a packet. -/
def windowOf (s : State) (src : Nat) : Option Window :=
  (tabGet s.fab.windows src).filter (fun w => decide (s.herd.time ≤ w.last + 2000000))

/-- The request has been received before. -/
def isDuplicate (s : State) (src seq : Nat) : Bool :=
  match windowOf s src with
  | none => false
  | some w => decide (2 ^ 31 ≤ diff32 seq w.mark) || w.above.contains seq

/-- The mark moved past every request received in order. -/
def advanceMark : (fuel : Nat) → Window → Window
  | 0, w => w
  | n + 1, w =>
    if w.above.contains w.mark then
      advanceMark n { w with mark := (w.mark + 1) % 2 ^ 32, above := w.above.filter (fun x => decide (x ≠ w.mark)) }
    else w

/-- A request noted as received, with an atomic's first result. -/
def noteSeq (src seq : Nat) (result : Option Nat) (s : State) : State :=
  let w := (windowOf s src).getD { mark := seq, above := [], atomics := [], last := s.herd.time }
  let w := advanceMark (w.above.length + 1) { w with above := if w.above.contains seq then w.above else seq :: w.above }
  let keep := w.atomics.filter (fun a => decide (diff32 a.1 w.mark < 2 ^ 31))
  let w := { w with last := s.herd.time, atomics := match result with
    | some v => tabSet keep seq v
    | none => keep }
  { s with fab := { s.fab with windows := tabSet s.fab.windows src w } }

/-- A packet from a device has arrived: its mark as unreachable ends (R487). -/
def heardFrom (dev : Nat) (s : State) : State :=
  { s with fab := { s.fab with unreachable := s.fab.unreachable.filter (fun d => decide (d ≠ dev)) } }

/-! ### Targets (R379, R380, R389) -/

/-- The status a target answers every memory request with for its own state: BUSY while stopped, DENIED in ROM and
RECOVERY (R379). Memory requests are the request packets of Table 16-4 (R388). -/
def stateStatus (s : State) : Option Nat :=
  if s.pwr.stopped then some 2 else if !(inMode s .trained || inHerd s) then some 1 else none

/-- The status a memory request of an extent is answered with; none where it is accepted. -/
def targetStatus (s : State) (p : Packet) (addr len : Nat) : Option Nat :=
  if (stateStatus s).isSome then stateStatus s
  else if !inT1Store addr len then some 3
  else
    match regionOf s p.ctx addr len with
    | some r => if (r.kind = 2 ∨ r.kind = 3) ∧ r.peerFirst ≤ p.srcDev ∧ p.srcDev ≤ r.peerLast then none else some 1
    | none => some 1

/-- A response to a request. -/
def respond (p : Packet) (op status : Nat) (gs : List Granule) (control : List Byte) (cache : Bool) (s : State) : State :=
  sendResponse
    { blankPacket op (devOf s) p.srcDev with
      pflags := 2 + p.pflags / 4 % 2 * 4 + 16 * bitNat cache, ctx := p.ctx, len := gs.length, seq := p.seq, tag := p.tag
      addr := p.addr, aux := 0, status, operand := p.operand, granules := gs, control } s

/-- A refused request: the answer, and for DENIED and ADDRESS the record. -/
def refuse (p : Packet) (op status : Nat) (s : State) : State :=
  let control := if p.op = 5 then natLe 16 0 else []
  if status = 2 then pcount 33 p.srcDev 1 p (respond p op 2 [] control false s)
  else
    respond p op status [] control false (pcount (if status = 1 then 36 else 37) p.srcDev 1 p
      (fabricErr status p.addr p.ctx (noteSeq p.srcDev p.seq none s)))

/-- A packet taken by its row: it is well formed, for this module and of the OP; else it is discarded and counted. -/
def takePacket (p : Packet) (op : Nat) (k : State → State) (s : State) : Answer :=
  .next (if !packetClean p || decide (p.op ≠ op) || decide (p.dstDev ≠ devOf s) then tcount 45 p.srcDev 1 s
    else k (heardFrom p.srcDev s))

/-- The request waits at the directory already. -/
def waitsHere (s : State) (p : Packet) : Bool :=
  s.fab.directory.any (fun d => d.waiting.any (fun w => w.srcDev == p.srcDev && w.seq == p.seq))

/-- The addresses of `n` granules. -/
def granAddrs (a n : Nat) : List Nat := (List.range n).map (fun i => a / 64 * 64 + 64 * i)

/-- The addresses of the granules of a request. -/
def requestGrans (p : Packet) : List Nat := granAddrs p.addr (max 1 p.len)

/-- A granule in RECALL, or with one waiting: new requests to it wait (Table 16-9, R399). -/
def inRecall (s : State) (a : Nat) : Bool := ((dirAt s a).map (fun d => d.recalling || d.queued)).getD false

/-- A further RECALL on the base die of a granule would be the 257th (R399). -/
def recallsFull (s : State) (a : Nat) : Bool := decide (256 ≤ recallsOn s (stackPlace s a).1)

/-- A request waits at a granule's entry. -/
def waitAt (a : Nat) (p : Packet) (s : State) : State :=
  updDir a (fun d => { d with waiting := d.waiting ++ [p] }) s

/-- The slot of a fold member in this tray. -/
def slotOfDev (dev : Nat) : Nat := dev % 4

/-- Set of a directory entry: stack and low granule bits of its stack-internal address (PRESUMED). -/
def dirSet (s : State) (a : Nat) : Nat × Nat := ((stackPlace s a).1, (stackPlace s a).2 / 64 % 16384)

/-- A copy granted to a neighbour: its slot joins the entry, or takes one; with 16 ways full the least recently used entry
is recalled first and the request waits, answered BUSY where that would be a recall too many (R399). The answer says whether
the data may go now. -/
def shareGran (a : Nat) (p : Packet) (s : State) : Bool × State :=
  match dirAt s a with
  | some d =>
    if d.recalling ∨ d.queued then (false, waitAt a p s)
    else (true, updDir a (fun d => { d with
      sharers := if d.sharers.contains (slotOfDev p.srcDev) then d.sharers else slotOfDev p.srcDev :: d.sharers
      stamp := s.fab.stamp }) { s with fab := { s.fab with stamp := s.fab.stamp + 1 } })
  | none =>
    let ways := s.fab.directory.filter (fun d => dirSet s d.addr == dirSet s a)
    if ways.length < 16 then
      (true, { s with fab := { s.fab with
        stamp := s.fab.stamp + 1
        directory := s.fab.directory ++ [{ addr := a / 64 * 64, sharers := [slotOfDev p.srcDev], recalling := false, queued := false
                                           stamp := s.fab.stamp, waiting := [], writes := [] }] } })
    else
      match ways.foldl (fun (m : Option DirEntry) d => match m with
          | none => some d
          | some v => if d.stamp < v.stamp then some d else some v) none with
      | some v =>
        if v.recalling ∨ v.queued then (false, waitAt v.addr p s)
        else if recallsFull s v.addr then (false, refuse p 2 2 s)
        else (false, waitAt v.addr p (startRecall v.addr (bump 12 44 0xFFFFFFFF 1 s)))
      | none => (false, s)

/-- LOAD_REQ at a target that accepts it. -/
def serveLoad (p : Packet) (s : State) : State :=
  match (requestGrans p).find? (inRecall s) with
  | some a => waitAt a p s
  | none =>
    if bitOf p.aux 0 then
      let (g, s) := peckGran p.addr s
      respond p 2 0 [g] [] false (noteSeq p.srcDev p.seq none s)
    else
      if (Packet.cache p) ∧ p.len = 1 ∧ isCoherent s p.addr ∧ (neighbours s).contains p.srcDev then
        match shareGran p.addr p s with
        | (true, s) =>
          let (gs, s) := loadGrans 1 p.addr s
          respond p 2 0 gs [] true (noteSeq p.srcDev p.seq none s)
        | (false, s) => s
      else
        let (gs, s) := loadGrans p.len p.addr s
        respond p 2 0 gs [] false (noteSeq p.srcDev p.seq none s)

/-- A write that finds a copy of one of the granules it writes: the recall, and the write waits, so that its acknowledgement
goes only after every copy (R389). With 256 granules in RECALL on the base die it is answered BUSY (R399). -/
def blockedAt (as : List Nat) (p : Packet) (ack : Nat) (s : State) : Option State :=
  match as.find? (fun a => (dirAt s a).isSome) with
  | none => none
  | some a =>
    if inRecall s a then some (waitAt a p s)
    else if recallsFull s a then some (refuse p ack 2 s)
    else some (waitAt a p (startRecall a s))

def blockedWrite (p : Packet) (ack : Nat) (s : State) : Option State := blockedAt (requestGrans p) p ack s

def storeAll (a : Nat) : List Granule → State → State
  | [], s => s
  | g :: r, s => storeAll (a + 64) r (storeGran a g s)

def serveStore (p : Packet) (s : State) : State :=
  match blockedWrite p 4 s with
  | some s => s
  | none => respond p 4 0 [] [] false (noteSeq p.srcDev p.seq none (storeAll p.addr p.granules s))

def serveAtomic (p : Packet) (s : State) : State :=
  match blockedWrite p 6 s with
  | some s => s
  | none =>
    let (g, s) := loadGran (p.addr / 64 * 64) s
    let (old, g') := atomicGran p.aux p.addr p.operand (fieldAt p.control 0 8) g
    let s := if old.isSome then storeGran (p.addr / 64 * 64) g' s else s
    respond p 6 0 [] (natLe 8 (old.getD 0) ++ natLe 8 (bitNat old.isNone)) false
      (noteSeq p.srcDev p.seq (some (old.getD (2 ^ 64))) s)

/-- MSG at a target: DENIED to a mailbox that is not bound, BUSY where every slot is occupied, else delivered (R384). The
extent that R379 checks is the slot's. -/
def serveMsg (p : Packet) (s : State) : State :=
  match mailboxAt s p.ctx p.aux with
  | none => refuse p 8 ((stateStatus s).getD 1) s
  | some b =>
    let slot := b.ring + b.delivered % b.slots * 576
    match targetStatus s p slot 576 with
    | some st => refuse p 8 st s
    | none =>
      if b.full then refuse p 8 2 s
      else
        match blockedAt (granAddrs slot (1 + p.granules.length)) p 8 s with
        | some s => s
        | none => respond p 8 0 [] [] false (noteSeq p.srcDev p.seq none (deliverMessage p.ctx p.aux p.srcDev b p.granules s))

/-- The READY sent to a participant counts as answered by the first packet of its block. -/
def readyAnswered (p : Packet) (s : State) : State :=
  { s with fab := { s.fab with requests := s.fab.requests.filter (fun r =>
    !(r.use == .exchange p.ctx (Packet.key p) (Packet.inst p) (Packet.srcIndex p) && r.pkt.op == 9)) } }

/-- The granules of a BLOCK that its receive area takes: none below it or beyond its maximum (R396). -/
def blockFit (e : Exchange) (p : Packet) : List Granule :=
  let (ra, rn) := e.recvs.getD (Packet.srcIndex p) (0, 0)
  if ra ≤ p.addr then p.granules.take (rn - (p.addr - ra) / 64) else []

/-- BLOCK of an exchange in progress: written up to the receiver's maximum, the rest discarded with a record (R396). -/
def serveBlock (p : Packet) (s : State) : State :=
  match exchangeAt s p.ctx (Packet.key p) (Packet.inst p) with
  | none => pcount 38 p.srcDev 1 p s
  | some e =>
    match targetStatus s p p.addr (64 * p.granules.length) with
    | some st => refuse p 12 st (readyAnswered p s)
    | none =>
      match blockedAt (granAddrs p.addr (blockFit e p).length) p 12 s with
      | some s => s
      | none =>
        let s := putGrans p.addr (blockFit e p) (readyAnswered p s)
        let s := if (blockFit e p).length < p.granules.length then
            recordErr { blankErr 16 with ctx := p.ctx, engine := 4, queue := e.q, detail := (Packet.key p) } s else s
        let s := updExchange p.ctx (Packet.key p) (Packet.inst p) (fun e => { e with
          got := tabSet e.got (Packet.srcIndex p) (tabNat e.got (Packet.srcIndex p) + p.granules.length) }) s
        respond p 12 0 [] [] false (noteSeq p.srcDev p.seq none s)

/-- A request served, or served again after a recall: what may wait for one is of the OPs 1, 3, 5, 7 and 10. -/
def serveRequest (p : Packet) (s : State) : State :=
  match p.op with
  | 1 => serveLoad p s
  | 3 => serveStore p s
  | 5 => serveAtomic p s
  | 7 => serveMsg p s
  | 10 => serveBlock p s
  | _ => s

def execLoadReq (p : Packet) (s : State) : Answer :=
  takePacket p 1 (fun s =>
    let half := bitOf p.aux 0
    let a := if half then p.addr / 32 * 32 else p.addr
    if waitsHere s p then s
    else
      match targetStatus s p a (if half then 32 else 64 * p.len) with
      | some st => refuse p 2 st s
      | none => serveLoad p (if isDuplicate s p.srcDev p.seq then pcount 34 p.srcDev 1 p s else s)) s

def execStorePacket (p : Packet) (s : State) : Answer :=
  takePacket p 3 (fun s =>
    if waitsHere s p then s
    else if isDuplicate s p.srcDev p.seq then respond p 4 0 [] [] false (pcount 34 p.srcDev 1 p s)
    else
      match targetStatus s p p.addr (64 * p.len) with
      | some st => refuse p 4 st s
      | none => serveStore p s) s

def execAtomicPacket (p : Packet) (s : State) : Answer :=
  takePacket p 5 (fun s =>
    if waitsHere s p then s
    else if isDuplicate s p.srcDev p.seq then
      let v := ((windowOf s p.srcDev).bind (fun w => tabGet w.atomics p.seq)).getD (2 ^ 64)
      respond p 6 0 [] (natLe 8 v ++ natLe 8 (v / 2 ^ 64)) false (pcount 34 p.srcDev 1 p s)
    else
      match targetStatus s p p.addr 8 with
      | some st => refuse p 6 st s
      | none => serveAtomic p s) s

def execMsg (p : Packet) (s : State) : Answer :=
  takePacket p 7 (fun s =>
    if waitsHere s p then s
    else if isDuplicate s p.srcDev p.seq then respond p 8 0 [] [] false (pcount 34 p.srcDev 1 p s)
    else serveMsg p s) s

/-! ### Exchange packets at a receiver (R395, R396) -/

/-- The instance is older than the newest run of its key. -/
def staleInstance (s : State) (p : Packet) : Bool :=
  match exchangeAt s p.ctx (Packet.key p) (Packet.inst p) with
  | some _ => false
  | none =>
    match (ctxAt s p.ctx).bind (fun c => tabGet c.exchangeRuns (Packet.key p)) with
    | some n => decide (1 ≤ diff32 n (Packet.inst p) ∧ diff32 n (Packet.inst p) < 2 ^ 31)
    | none => false

/-- The target's state refuses every packet of an exchange (R379). -/
def exchangeBusy (s : State) : Bool := (stateStatus s).isSome

def execReady (p : Packet) (s : State) : Answer :=
  takePacket p 9 (fun s =>
    if exchangeBusy s then refuse p 12 ((stateStatus s).getD 2) s
    else if isDuplicate s p.srcDev p.seq then pcount 34 p.srcDev 1 p s
    else if staleInstance s p then pcount 38 p.srcDev 1 p (noteSeq p.srcDev p.seq none s)
    else
      match exchangeAt s p.ctx (Packet.key p) (Packet.inst p) with
      | some _ => answerReady p.ctx (Packet.key p) (Packet.inst p) (Packet.srcIndex p) p.addr (noteSeq p.srcDev p.seq none s)
      | none =>
        if 4096 ≤ s.fab.readies.length then refuse p 12 2 s
        else
          let s := noteSeq p.srcDev p.seq none s
          { s with fab := { s.fab with readies := s.fab.readies ++ [p] } }) s

def execBlock (p : Packet) (s : State) : Answer :=
  takePacket p 10 (fun s =>
    if exchangeBusy s then refuse p 12 ((stateStatus s).getD 2) s
    else if waitsHere s p then s
    else if isDuplicate s p.srcDev p.seq then respond p 12 0 [] [] false (pcount 34 p.srcDev 1 p s)
    else serveBlock p s) s

def execBlockEnd (p : Packet) (s : State) : Answer :=
  takePacket p 11 (fun s =>
    if exchangeBusy s then refuse p 12 ((stateStatus s).getD 2) s
    else if isDuplicate s p.srcDev p.seq then respond p 12 0 [] [] false (pcount 34 p.srcDev 1 p s)
    else
      match exchangeAt s p.ctx (Packet.key p) (Packet.inst p) with
      | none => pcount 38 p.srcDev 1 p s
      | some _ =>
        let s := updExchange p.ctx (Packet.key p) (Packet.inst p) (fun e => { e with
          ends := tabSet e.ends (Packet.srcIndex p) (fieldAt p.control 0 4) }) (readyAnswered p s)
        respond p 12 0 [] [] false (noteSeq p.srcDev p.seq none s)) s

/-! ### Responses at the source (R380, R386, R389) -/

/-- The granules of a transfer's rounds, placed where they go; poison of a weight piece is kept with its transfer. -/
def placeFetched (x : Xfer) (gs : List Granule) (s : State) : State :=
  let bad := gs.any isPoison
  let s := updXfer x.id (fun y => { y with failed := y.failed || bad }) s
  match x.use with
  | .copy q =>
    match (queueAt s .te q).bind headOf with
    | some c =>
      let (dr, dst) := resolveAddr s (bitOf (c.body 52 1) 1) (c.body 40 8)
      placeXfer x.use (.queue .te q) dr (bitOf (c.body 52 1) 3) c.genFlag dst gs s
    | none => s
  | .sched _ _ _ _ => placeXfer x.use .fleos false false false x.dst gs s
  | _ => putGrans x.dst gs s

def advanceAny (id : Nat) (s : State) : State :=
  match xferAt s id with
  | some x =>
    match x.use with
    | .ret _ _ _ => advanceReturn id s
    | .spill _ _ _ _ => s
    | _ => advanceXfer id placeFetched s
  | none => s

def requestFor (s : State) (p : Packet) : Option Request :=
  s.fab.requests.find? (fun r => r.pkt.dstDev == p.srcDev && r.pkt.seq == p.seq && r.pkt.tag == p.tag)

def dropRequest (r : Request) (s : State) : State :=
  { s with fab := { s.fab with requests := s.fab.requests.filter (fun x =>
    !(x.pkt.dstDev == r.pkt.dstDev && x.pkt.seq == r.pkt.seq)) } }

/-- The data of an answered or failed load or atomic put where it goes. -/
def placeAnswer (r : Request) (gs : List Granule) (old : Option Nat) (keep : Bool) (s : State) : State :=
  match r.use with
  | .loadTo a _ => putGrans a gs s
  | .loadBuf x i => updXfer x (fun y => { y with
      buf := gs.zipIdx.foldl (fun b g => tabSet b (i + g.2) g.1) y.buf, failed := y.failed || decide (gs = []) }) s
  | .loadCache a =>
    let g := gs.headD poisonGran
    let s := putGran a g s
    let key := (r.pkt.dstDev, r.pkt.addr)
    if s.fab.staleFills.contains key then
      pcount 42 r.pkt.dstDev 1 r.pkt { s with fab := { s.fab with staleFills := s.fab.staleFills.erase key } }
    else if keep then keepCopy r.pkt.dstDev r.pkt.addr g s else s
  | .atomic a => if a = 0 then s else putGran a (resultGran old) s
  | _ => s

/-- A request over: what waited on a limit may go, and its transfer or exchange goes on. -/
def afterRequest (r : Request) (s : State) : State :=
  let s := drainHeld s
  match r.use, r.owner with
  | .exchange ctx key inst d, _ => maybeBlockEnd ctx key inst d s
  | _, .xfer id => advanceAny id s
  | _, _ => s

/-- The acknowledgement of a write counted for its fence epoch (R391). -/
def countAck (r : Request) (s : State) : State :=
  if isWriteOp r.pkt.op then
    updCtx r.pkt.ctx (fun c => { c with epochs := epochSub (r.pkt.epoch, r.pkt.dstDev) c.epochs }) s
  else s

/-- A response taken: a second acknowledgement is counted and discarded, BUSY is kept for the resend, a refusal poisons
what was asked for. -/
def takeResponse (p : Packet) (gs : List Granule) (old : Option Nat) (s : State) : State :=
  match requestFor s p with
  | none => pcount 35 p.srcDev 1 p s
  | some r =>
    if p.status = 2 then
      { s with fab := { s.fab with requests := s.fab.requests.map (fun x =>
        if x.pkt.dstDev = r.pkt.dstDev ∧ x.pkt.seq = r.pkt.seq then { x with busy := true } else x) } }
    else if p.status ≠ 0 then
      let s := fabricErr p.status (r.pkt.dstDev * 2 ^ 42 + r.pkt.addr) r.pkt.ctx (countAck r (dropRequest r s))
      afterRequest r (placeAnswer r (List.replicate (max 1 r.pkt.len) poisonGran) none false s)
    else afterRequest r (placeAnswer r gs old (Packet.cache p) (countAck r (dropRequest r s)))

def execLoadResp (p : Packet) (s : State) : Answer := takePacket p 2 (takeResponse p p.granules none) s

def execStoreAck (p : Packet) (s : State) : Answer := takePacket p 4 (takeResponse p [] none) s

/-- The old value of an atomic, none where its granule was poisoned: the second word of the control body tells (DEDUCED). -/
def execAtomicResp (p : Packet) (s : State) : Answer :=
  takePacket p 6 (takeResponse p [] (if fieldAt p.control 8 8 = 0 then some (fieldAt p.control 0 8) else none)) s

def execMsgAck (p : Packet) (s : State) : Answer := takePacket p 8 (takeResponse p [] none) s

def execBlockAck (p : Packet) (s : State) : Answer :=
  takePacket p 12 (fun s =>
    let s := match requestFor s p with
      | some r =>
        match r.use with
        | .exchange ctx key inst d =>
          if r.pkt.op = 11 ∧ p.status ≠ 2 then updExchange ctx key inst (fun e => { e with acked := e.acked ++ [d] }) s else s
        | _ => s
      | none => s
    takeResponse p [] none s) s

/-! ### Coherence in a fold (R398, R400, R420) -/

/-- A recall over on a base die lets the one that has waited longest for room begin (R399). -/
def nextRecall (stack : Nat) (s : State) : State :=
  match s.fab.directory.find? (fun d => d.queued && (stackPlace s d.addr).1 == stack) with
  | some d => wantRecall d.addr s
  | none => s

/-- An entry freed after its last sharer: local writes that waited take effect, then requests in arrival order. -/
def freeEntry (a : Nat) (s : State) : State :=
  match dirAt s a with
  | none => s
  | some d =>
    let s := { s with fab := { s.fab with directory := s.fab.directory.filter (fun e => decide (e.addr ≠ d.addr)) } }
    let s := d.writes.foldl (fun s g => storeGran d.addr g s) s
    nextRecall (stackPlace s d.addr).1 (d.waiting.foldl (fun s p => serveRequest p s) s)

/-- A granule of an extent has an entry. -/
def copiesIn (s : State) (a n : Nat) : Bool := s.fab.directory.any (fun d => decide (a ≤ d.addr) && decide (d.addr < a + n))

/-- Every entry of an extent is recalled before the region is freed (Table 16-10). -/
def recallExtent (a n : Nat) (s : State) : State :=
  s.fab.directory.foldl (fun s d => if a ≤ d.addr ∧ d.addr < a + n then wantRecall d.addr s else s) s

/-- Regions whose removal waits for their last recall go, and their REGION_UNMAP completes (R131, Table 16-10). -/
def freeRegions (s : State) : State :=
  s.contexts.foldl (fun s c => c.2.regions.foldl (fun s r => match r.2.unmap with
    | some cmd =>
      if copiesIn s r.2.addr r.2.size then s
      else finishOk cmd 0 (updCtx c.1 (fun x => { x with regions := tabDel x.regions r.1 }) s)
    | none => s) s) s

/-- A sharer is gone: acknowledged, or failed. -/
def dropSharer (a slot : Nat) (s : State) : State :=
  let s := updDir a (fun d => { d with sharers := d.sharers.filter (fun x => decide (x ≠ slot)) }) s
  match dirAt s a with
  | some d => if d.recalling ∧ d.sharers = [] then freeRegions (freeEntry a s) else s
  | none => s

def execInv (p : Packet) (s : State) : Answer :=
  takePacket p 13 (fun s =>
    let filling := s.fab.requests.any (fun r => (match r.use with | .loadCache _ => true | _ => false)
      && r.pkt.dstDev == p.srcDev && r.pkt.addr == p.addr)
    let s := { s with fab := { s.fab with
      copies := s.fab.copies.filter (fun c => !(c.home == p.srcDev && c.addr == p.addr))
      staleFills := if filling ∧ !s.fab.staleFills.contains (p.srcDev, p.addr) then (p.srcDev, p.addr) :: s.fab.staleFills
                    else s.fab.staleFills } }
    respond p 14 0 [] [] false (noteSeq p.srcDev p.seq none s)) s

def execInvAck (p : Packet) (s : State) : Answer :=
  takePacket p 14 (fun s =>
    match requestFor s p with
    | some r => if r.pkt.op = 13 then dropSharer r.pkt.addr (slotOfDev p.srcDev) (takeResponse p [] none s) else s
    | none => pcount 35 p.srcDev 1 p s) s

/-- A home's drop notice: every copy from it goes, and the notice is acknowledged (R420). -/
def execDropNotice (home : Nat) (s : State) : Answer :=
  .next (if (neighbours s).contains home then emit (.dropAck home) (dropCopies home s) else s)

/-! ### Retransmission (R388) -/

/-- A request sent again with RETX = 1. -/
def resend (r : Request) (alternate : Bool) (attempts : Nat) (s : State) : State :=
  let p := { r.pkt with pflags := if bitOf r.pkt.pflags 3 then r.pkt.pflags else r.pkt.pflags + 8 }
  let (l, s) := sendRouted p alternate s
  { s with fab := { s.fab with requests := s.fab.requests.map (fun x =>
    if x.pkt.dstDev = p.dstDev ∧ x.pkt.seq = p.seq then
      { x with pkt := p, alternate, busy := false, link := l, attempts } else x) } }

/-- A request that has failed with PEER_UNREACHABLE. -/
def failRequest (r : Request) (s : State) : State :=
  let dev := r.pkt.dstDev
  let s := pcount 39 dev 1 r.pkt (dropCopies dev (dropRequest r s))
  let s := recordErr { blankErr 15 with ctx := r.pkt.ctx, addr := dev * 2 ^ 42 + r.pkt.addr, detail := dev } s
  let s := countAck r s
  let s := if isWriteOp r.pkt.op then
      updCtx r.pkt.ctx (fun c => { c with epochFails := (r.pkt.epoch, dev) :: c.epochFails }) s else s
  let s := match r.owner with
    | .xfer id => updXfer id (fun x => { x with failed := true }) s
    | .cmd o => updCmd o (fun c => { c with chain := { c.chain with dead := some dev } }) s
    | _ => s
  let s := if r.pkt.op = 13 then
      dropSharer r.pkt.addr (slotOfDev dev) (recordErr { blankErr 20 with addr := r.pkt.addr, detail := dev } s) else s
  afterRequest r (placeAnswer r (List.replicate (max 1 r.pkt.len) poisonGran) none false s)

/-- RETX_TIMEOUT of an unanswered request. -/
def execRetxTimeout (dst seq : Nat) (s : State) : Answer :=
  .next (match s.fab.requests.find? (fun r => r.pkt.dstDev == dst && r.pkt.seq == seq) with
    | none => s
    | some r =>
      if r.busy then retxSlip r.owner (resend r r.alternate r.attempts (pcount 32 dst 1 r.pkt s))
      else
        let s := if 2 ≤ r.attempts ∨ noRoute s dst r.pkt.addr then skipDead (markUnreachable dst s) else s
        if retxMax s ≤ r.attempts then failRequest r s
        else retxSlip r.owner (resend r (!r.alternate) (r.attempts + 1) (pcount 30 dst 1 r.pkt s)))

end Sys2Proof.Machine
end

