-- ==== Sys2Proof/Machine/Engine.lean ====
section
/-! DEFINITION. Queues: the defects of a command, start, issue, retirement, the common opcodes, stop requests and the
programs that wait on queues (file 04; R134, R135). -/
namespace Sys2Proof.Machine

/-! ### Units (R17, R105, R106) -/

/-- PE and GE cores are clock-gated in CACHE role. -/
def gated (s : State) (e : Engine) : Bool := s.boot.straps.role == 2 && (e == .pe || e == .ge)

def unitUsable (s : State) (e : Engine) (u : Nat) : Bool := !gated s e && !s.eng.fenced.contains (e, u)

/-- No task of any queue is on the unit, and it is usable. -/
def unitFree (s : State) (e : Engine) (u : Nat) : Bool :=
  unitUsable s e u && !s.eng.tasks.any (fun t => t.engine == e && t.unit == u)
    && !s.eng.held.any (fun h => h.1 == e && h.2.1 == u)

/-- Lowest number from `lo`, below `hi`, for which a test holds. -/
def lowestFrom (f : Nat → Bool) : (fuel lo : Nat) → Option Nat
  | 0, _ => none
  | n + 1, lo => if f lo then some lo else lowestFrom f n (lo + 1)

/-- The lowest free unit of a command's core set: the first fenced or busy ones are passed over. -/
def freeUnit (s : State) (e : Engine) (c : Cmd) : Option Nat :=
  if gated s e then none
  else lowestFrom (unitFree s e) (min (c.lastUnit e - c.coreFirst)
    (s.eng.tasks.length + s.eng.held.length + s.eng.fenced.length + 1)) c.coreFirst

/-- The unit that the next task of a queue goes to. When no unit of the set is free, a queue of SE, TE or FE whose own tasks
hold some gets the one it has held longest: how long such a task runs is timing, and its work is done with the command's
(DESIGN CHOICE, log entry 56). -/
def issueUnit (s : State) (e : Engine) (q : Nat) (c : Cmd) : Option Nat :=
  (freeUnit s e c).orElse (fun _ =>
    (s.eng.held.find? (fun h => h.1 == e && h.2.2 == q && decide (c.coreFirst ≤ h.2.1 ∧ h.2.1 < c.lastUnit e))).map (·.2.1))

/-- A unit of the core set is neither fenced nor clock-gated. -/
def hasUsable (s : State) (e : Engine) (c : Cmd) : Bool :=
  !gated s e && (lowestFrom (unitUsable s e) (min (c.lastUnit e - c.coreFirst) (s.eng.fenced.length + 1)) c.coreFirst).isSome

/-! ### Defects (Table 4-5) -/

/-- An opcode the engine defines (R96). -/
def opcodeKnown (e : Engine) (op : Nat) : Bool :=
  decide (op ≤ 2) || (match e with
    | .pe | .ge => op == 0x10
    | .se => decide (0x20 ≤ op ∧ op ≤ 0x24) || op == 0x30 || op == 0x31
    | .te => decide (0x10 ≤ op ∧ op ≤ 0x12) || decide (0x40 ≤ op ∧ op ≤ 0x42)
    | .fe => decide (0x10 ≤ op ∧ op ≤ 0x16))

/-- Row 2: a reserved field, or a field in use with its flag clear. A YOKE of END or FRAME_LOOP, which R96 gives to NOP alone,
is taken as such a field (DESIGN CHOICE, log entry 69). -/
def reservedDefect (c : Cmd) : Bool :=
  decide (c.flags / 64 ≠ 0) || decide (c.ctx / 16 ≠ 0) || bitOf c.coreWord 19 || decide (fieldAt c 16 4 / 2 ^ 19 ≠ 0)
  || decide (fieldAt c 20 4 / 2 ^ 24 ≠ 0) || decide (4096 ≤ c.waitEvent) || decide (4096 ≤ c.signalEvent)
  || decide (4096 ≤ c.fillGroup) || !launchClean c.launch
  || (!c.waitFlag && decide (c.waitEvent ≠ 0 ∨ c.waitCount ≠ 0)) || (!c.signalFlag && decide (c.signalEvent ≠ 0))
  || (!c.fillFlag && decide (c.fillGroup ≠ 0))
  || (decide (c.opcode ≤ 2) && (decide (c.coreFirst ≠ 0 ∨ c.coreCount ≠ 0 ∨ c.tasks ≠ 0) || decide (leNat (slice c 32 32) ≠ 0)))
  || (decide (c.opcode = 1 ∨ c.opcode = 2) && decide (c.yoke ≠ 0))

/-- The rows that a list alone decides, but for the body: 1, 2, 4, 5, 6, 7 (R133); of several the first in the table's order,
which the manual leaves open (DESIGN CHOICE, log entry 69). -/
def listDefect (e : Engine) (ctx evBase evCount : Nat) (c : Cmd) : Option Nat :=
  let outside (n : Nat) : Bool := decide (n < evBase ∨ evBase + evCount ≤ n)
  firstDefect [
    (decide (c.engine ≠ e.code) || !opcodeKnown e c.opcode, 1),
    (reservedDefect c, 2),
    ((c.frameFlag && decide (launchFrame c.launch ≠ 0)) || (decide (c.yoke ≠ 0) && !launchValid c.launch), 4),
    (decide (e.units ≤ c.coreFirst) || decide (e.units < c.coreFirst + c.coreCount), 5),
    (decide (c.ctx ≠ ctx), 6),
    ((c.waitFlag && outside c.waitEvent) || (c.signalFlag && outside c.signalEvent), 7)]

/-- The part of a body's rule that the list alone decides. -/
def bodyStatic (s : State) (e : Engine) (events : Nat) (c : Cmd) : Bool :=
  match e, c.opcode with
  | .pe, 0x10 | .ge, 0x10 => tileBodyOk c
  | .se, 0x30 => prepBodyOk c
  | .se, 0x31 => sampleBodyOk c
  | .te, 0x10 => copyBodyOk s c
  | .te, 0x11 => replicateBodyStatic c
  | .te, 0x12 => scheduleBodyOk c
  | .te, 0x41 => appendBodyStatic c
  | .te, 0x42 => gatherBodyStatic c
  | .te, 0x40 => poolBodyStatic c
  | .fe, 0x10 => getBodyOk s c
  | .fe, 0x11 => putBodyOk s c
  | .fe, 0x12 => atomicBodyOk s c
  | .fe, 0x13 => sendBodyOk c
  | .fe, 0x14 => mboxBodyIn 0 events c
  | .fe, 0x15 => tasksOk c 1 && decide (leNat (slice c 40 24) = 0) && feLocalOk (c.body 32 8) 3
  | .fe, 0x16 => routeExchangeBodyStatic c
  | .se, op => decide (op ≤ 2) || routeBodyStatic c
  | _, _ => true

/-- Row 9: the body, and the structures it names. -/
def bodyOk (s : State) (e : Engine) (x : Queue) (c : Cmd) : Bool :=
  match e, c.opcode with
  | .pe, 0x10 | .ge, 0x10 => tileBodyOk c
  | .se, 0x30 => prepBodyOk c
  | .se, 0x31 => sampleBodyOk c
  | .se, op => decide (op ≤ 2) || routeBodyOk s c
  | .te, 0x10 => copyBodyOk s c
  | .te, 0x11 => replicateBodyOk s c
  | .te, 0x12 => scheduleBodyOk c
  | .te, 0x40 => poolBodyOk s x.ctx c
  | .te, 0x41 => appendBodyOk s x.ctx c
  | .te, 0x42 => gatherBodyOk s x.ctx c
  | .fe, 0x10 => getBodyOk s c
  | .fe, 0x11 => putBodyOk s c
  | .fe, 0x12 => atomicBodyOk s c
  | .fe, 0x13 => sendBodyOk c
  | .fe, 0x14 => match progAt s x.ctx x.program with | some p => mboxBodyOk p c | none => false
  | .fe, 0x15 => exchangeBodyOk s c
  | .fe, 0x16 => routeExchangeBodyOk s c
  | _, _ => true

/-- Row 3, judged at launch: the frame that the launch word names is in force or past, in READY, and LOFFSET is not less than
the period in effect (R42, R43). -/
def offsetDefect (s : State) (c : Cmd) : Bool :=
  launchValid c.launch && inMode s .ready && s.herd.inFrame && decide (s.herd.period ≤ launchOffset c.launch)
  && (c.frameFlag || decide (((launchTarget c.launch s.herd.frame).getD 0) ≤ s.herd.frame))

/-- The first defect of a command at the head of a queue that needs no start condition to be judged: rows 1 to 8. -/
def headDefect (s : State) (e : Engine) (x : Queue) (c : Cmd) : Option Nat :=
  let (b, n) := match progAt s x.ctx x.program with
    | some p => (p.eventBase, p.eventCount)
    | none => (0, 4096)
  match listDefect e x.ctx b n c with
  | some 1 => some 1
  | some 2 => some 2
  | d =>
    if offsetDefect s c then some 3
    else
      match d with
      | some r => some r
      | none => if decide (2 < c.opcode) && !hasUsable s e c then some 8 else none

/-! ### Start conditions (R42, R99, R109, R114, R117) -/

/-- The launch time a command names now: none where it cannot be resolved yet, some 0 for a past frame. -/
def launchTime (s : State) (c : Cmd) : Option Nat :=
  if !launchValid c.launch then some 0
  else if !(inMode s .ready && s.herd.inFrame) then none
  else if c.frameFlag then some (tickOf s.herd s.herd.frame + launchOffset c.launch)
  else
    match launchTarget c.launch s.herd.frame with
    | some k => some (tickOf s.herd k + launchOffset c.launch)
    | none => some 0

def launchReached (s : State) (c : Cmd) : Bool :=
  match launchTime s c with
  | some t => decide (t ≤ s.herd.time)
  | none => false

def waitReached (s : State) (c : Cmd) : Bool := !c.waitFlag || eventReached s c.waitEvent c.waitCount

def fillMarked (s : State) (x : Queue) (c : Cmd) : Bool :=
  !c.fillFlag || ((progAt s x.ctx x.program).map (fun p => p.marks.contains c.fillGroup)).getD false

/-- A queue whose head command may be judged: WAITING, not for a tick, and the module not stopped. -/
def waitingHead (s : State) (e : Engine) (q : Nat) : Option (Queue × Cmd) :=
  match queueAt s e q with
  | some x =>
    match headOf x with
    | some c => if x.state = 2 ∧ !x.awaitTick ∧ !s.pwr.stopped then some (x, c) else none
    | none => none
  | none => none

/-- The herd time that a launch word names, a past frame's too (R42, R44). -/
def namedTime (s : State) (c : Cmd) : Nat :=
  let h := s.herd
  let k := if c.frameFlag then h.frame
    else (launchTarget c.launch h.frame).getD (h.frame - (2 ^ 32 - diff32 (launchFrame c.launch) (h.frame % 2 ^ 32)))
  tickOf h k + launchOffset c.launch

/-- Late launches and late yoke starts counted at a start (R42, R44). -/
def countStart (c : Cmd) (s : State) : State :=
  if !launchValid c.launch then s
  else
    let s := if !c.frameFlag && (launchTarget c.launch s.herd.frame).isNone then bump 1 16 0 1 s else s
    let t := namedTime s c
    if c.yoke ≠ 0 ∧ t < s.herd.time then
      let d := s.herd.time - t
      setCounter 1 20 0 d (setCounter 1 19 0 c.yoke (bump 1 18 0 d (bump 1 17 0 1 s)))
    else s

/-- The fill of a command that reaches its head with every other condition true is missed: counted, and a slip requested
(R118). ENGINE and QUEUE of Fleos's request are those of the waiting queue: the manual names none (DESIGN CHOICE, log
entry 66). -/
def missFill (e : Engine) (q : Nat) (x : Queue) (s : State) : State :=
  if x.missed then s
  else
    let s := { s with tally := { s.tally with missedFills := s.tally.missedFills + 1 } }
    requestSlip (nextTick s) 8 e.code q (updQueue e q (fun x => { x with missed := true }) s)

/-- What a start condition check comes to. -/
inductive Start where
  | faulty (row : Nat)
  | notYet
  | missed
  | go
deriving DecidableEq, Repr

def startCheck (s : State) (e : Engine) (x : Queue) (c : Cmd) : Start :=
  match headDefect s e x c with
  | some r => .faulty r
  | none =>
    if !launchReached s c || !waitReached s c then .notYet
    else if !fillMarked s x c then .missed
    else if !bodyOk s e x c then .faulty 9
    else .go

/-! ### Retirement (R100, R102, R110) -/

/-- What a queue is after its head command has retired: HOLDING under a stop request, else waiting at the next command; a
command of a frame that has ended leads back to command 0. -/
def afterRetire (x : Queue) (c : Cmd) : Queue :=
  let next := if x.late then 0 else x.head + 1
  { x with state := if x.stopReq.isSome then 4 else 2, stopReq := none, head := next, cur := none, issued := 0
           finished := 0, worked := false, defect := none, late := false, missed := false, reissue := []
           guardDone := if c.guardFlag && !x.late then true else x.guardDone }

/-- What only the running command held: its transfers and its exchange. -/
def dropWork (e : Engine) (q : Nat) (s : State) : State :=
  match e with
  | .te => { s with fab := { s.fab with xfers := s.fab.xfers.filter (fun x => x.use != .copy q) } }
  | .fe => { s with fab := { s.fab with exchanges := s.fab.exchanges.filter (fun x => x.q != q) } }
  | _ => s

/-- The event of a command that retires; that of a command whose frame has ended is discarded and counted (R110). -/
def signalRetired (x : Queue) (c : Cmd) (s : State) : State :=
  if !c.signalFlag then s
  else if x.late then { s with tally := { s.tally with discardedSignals := s.tally.discardedSignals + 1 } }
  else signalEvent c.signalEvent s

/-- The head command retires: its event, its units, and the queue's next state. -/
def retireHead (e : Engine) (q : Nat) (x : Queue) (c : Cmd) (s : State) : State :=
  let s := freeUnits e q (dropWork e q (setQueue e q (afterRetire x c) (signalRetired x c s)))
  if e = .te ∧ c.opcode = 0x10 then landCopy x.ctx q x.head s else s

/-! ### Programs that wait on their queues (R134, R135) -/

/-- Mailboxes of a program are unbound (R384). -/
def unbindMailboxes (ctx prog : Nat) (s : State) : State :=
  updCtx ctx (fun c => { c with mailboxes := c.mailboxes.filter (fun m => decide (m.2.program ≠ prog)) }) s

def setQueuesOf (p : Program) (g : Queue → Queue) (s : State) : State :=
  p.queues.foldl (fun s k => updQueue k.1 k.2 g s) s

/-- A PROGRAM_STOP with MODE 0x00 takes its end: queues READY, mailboxes, schedule and sticky state gone (R203, R296, R384). -/
def stopProgram (ctx prog : Nat) (p : Program) (s : State) : State :=
  let s := setQueuesOf p (fun x => if x.state = 4 then { x with state := 1, head := 0, awaitTick := false } else x) s
  silenceSchedule ctx prog (unbindMailboxes ctx prog
    (updProg ctx prog (fun p => { p with schedule := none, classes := [], rungs := [], replayRungs := [] }) s))

/-- Stop commands of a program that may complete; a FAULTED queue counts as stopped (log entry 23). -/
def settleStops (ctx prog : Nat) (s : State) : State :=
  match progAt s ctx prog with
  | none => s
  | some p =>
    if p.stopCmds.isEmpty ∨ (progQueues s p).any (fun x => x.state == 2 || x.state == 3) then s
    else
      p.stopCmds.foldl (fun s c =>
        let s := if c.2 = 0 then stopProgram ctx prog p s else s
        finishOk c.1 0 s) (updProg ctx prog (fun p => { p with stopCmds := [] }) s)

/-- The open PROGRAM_STARTs complete once every queue is READY again (R134). -/
def settleStart (ctx prog : Nat) (s : State) : State :=
  match progAt s ctx prog with
  | none => s
  | some p =>
    if p.startCmds ≠ [] ∧ (progQueues s p).all (fun x => x.state == 1) = true then finishStarts ctx prog 0 0 s else s

/-- What waits on the queues of a program. -/
def settleProgram (ctx prog : Nat) (s : State) : State := settleStart ctx prog (settleStops ctx prog (settleSlipOut ctx s))

/-- A queue's change, with what waits on it. -/
def settleQueue (e : Engine) (q : Nat) (s : State) : State :=
  match queueAt s e q with
  | some x => settleProgram x.ctx x.program s
  | none => s

/-- A stop request to every queue of a program: at once where a queue waits, else at the next retirement (R102). -/
def requestStop (p : Program) (s : State) : State :=
  setQueuesOf p (fun x =>
    if x.state = 2 then { x with state := 4, awaitTick := false }
    else if x.state = 3 then { x with stopReq := some 1 } else x) s

/-! ### The commands of queues -/

/-- A common opcode that runs: judged like any command, it retires as it starts. -/
def runCommon (e : Engine) (q opcode : Nat) (k : Queue → Cmd → State → State) (s : State) : Answer :=
  .next (match waitingHead s e q with
    | none => s
    | some (x, c) =>
      if c.opcode ≠ opcode then s
      else
        match startCheck s e x c with
        | .faulty r => settleQueue e q (faultQueue e q r s)
        | .notYet => s
        | .missed => missFill e q x s
        | .go => settleQueue e q (k x c (countStart c s)))

def execNop (e : Engine) (q : Nat) (s : State) : Answer := runCommon e q 0 (fun x c s => retireHead e q x c s) s

/-- END: the queue goes to READY, and Fleos learns of it. -/
def execEndList (e : Engine) (q : Nat) (s : State) : Answer :=
  runCommon e q 1 (fun x c s =>
    let s := retireHead e q x c s
    updQueue e q (fun x => if x.state = 4 then x else { x with state := 1, head := 0 }) s) s

/-- FRAME_LOOP: the frame's part ends; the queue waits for the next tick at command 0. -/
def execFrameLoop (e : Engine) (q : Nat) (s : State) : Answer :=
  runCommon e q 2 (fun x c s =>
    let s := retireHead e q x c s
    updQueue e q (fun x => { x with head := 0, awaitTick := true }) s) s

/-- COMMAND_START: a command of the engine goes to RUNNING once every start condition holds; with TASKS = 0 it retires as
it starts (R99, R101). -/
def execCommandStart (e : Engine) (q : Nat) (s : State) : Answer :=
  .next (match waitingHead s e q with
    | none => s
    | some (x, c) =>
      match startCheck s e x c with
      | .faulty r => settleQueue e q (faultQueue e q r s)
      | .notYet => s
      | .missed => missFill e q x s
      | .go =>
        if c.opcode ≤ 2 then s
        else
          let s := countStart c s
          let x := { x with state := 3, cur := some c, issued := 0, finished := 0, worked := false, defect := none, rung := 0, reissue := [] }
          if c.tasks = 0 then settleQueue e q (retireHead e q x c s) else setQueue e q x s)

/-! ### Task issue (R105, R108, R201, R204) -/

/-- A queue has a task to issue. -/
def hasTask (x : Queue) : Bool :=
  x.state == 3 && x.defect.isNone && (match headOf x with
    | some c => !x.reissue.isEmpty || decide (x.issued < c.tasks)
    | none => false)

/-- A lower-numbered queue of the engine has a task and a free unit in its set. -/
def lowerFirst (s : State) (e : Engine) (q : Nat) : Bool :=
  (List.range q).any (fun j => match queueAt s e j with
    | some y => hasTask y && (match headOf y with
        | some c => (issueUnit s e j c).isSome
        | none => false)
    | none => false)

/-- The starting rung of a command: as recorded for the frame it replays, else its class's sticky rung. -/
def startRung (s : State) (e : Engine) (q : Nat) (x : Queue) (c : Cmd) : Nat :=
  match progAt s x.ctx x.program with
  | none => 0
  | some p =>
    match (if barrierHeld s x.ctx then none else p.replayRungs.find? (fun r => r.1 == (e, q, x.head))) with
    | some r => r.2
    | none =>
      let prog := c.body 32 8
      let len := min 1024 (fieldAt (peek s prog 64) 2 2)
      let pg := progPg s prog len
      if pg = 0 then 0
      else
        let gd := ((guardAt prog pg).map (fun a => peek s a 64)).getD []
        match tabGet p.classes (gdClass gd) with
        | some y => if y.left = 0 then 0 else min y.rung (gdMaxRung gd)
        | none => 0

/-- A task given to a PE or GE unit, at its starting rung. -/
def placeTask (e : Engine) (q u : Nat) (x : Queue) (c : Cmd) (s : State) : State :=
  let first := x.issued == 0 && x.reissue.isEmpty
  let rung := if first then startRung s e q x c else x.rung
  let s := if first then updProg x.ctx x.program (fun p => { p with rungs := p.rungs ++ [((e, q, x.head), rung)] }) s else s
  let (index, r, reps, x) := match x.reissue with
    | (i, r, n) :: rest => (i, r, n, { x with reissue := rest })
    | [] => (x.issued, rung, 0, { x with issued := x.issued + 1, rung })
  let t : Task :=
    { engine := e, unit := u, queue := q, index, run := none, pc := 0, code := [], rung := r, clip := 0, zeroBlocks := 0
      edge := 0, failed := false, repeats := reps, tile := none, refetched := none, ahead := none, stores := [] }
  setQueue e q x { s with eng := { s.eng with tasks := s.eng.tasks ++ [t] } }

/-- A task given to a unit of SE, TE or FE, which it holds. -/
def holdUnit (e : Engine) (q u : Nat) (x : Queue) (s : State) : State :=
  let s := { s with eng := { s.eng with held := s.eng.held.filter (fun h => !(h.1 == e && h.2.1 == u)) ++ [(e, u, q)] } }
  setQueue e q { x with issued := x.issued + 1 } s

/-- TASK_ISSUE: the next task goes to the lowest free unit of the core set; with none free, issue waits (R105, R108). -/
def execTaskIssue (e : Engine) (q : Nat) (s : State) : Answer :=
  .next (match queueAt s e q with
    | none => s
    | some x =>
      match headOf x with
      | none => s
      | some c =>
        if !hasTask x || lowerFirst s e q || s.pwr.stopped then s
        else
          match issueUnit s e q c with
          | none => s
          | some u =>
            match e with
            | .pe | .ge => placeTask e q u x c s
            | _ => holdUnit e q u x s)

/-- A local write still waits for the recall of its granule (R398): it has not reached its memory. -/
def writesWait (s : State) : Bool := s.fab.directory.any (fun d => !d.writes.isEmpty)

/-- The work of a running command is done, and every write of it has reached its destination (R100, R395). -/
def workDone (s : State) (e : Engine) (q : Nat) (x : Queue) (c : Cmd) : Bool :=
  decide (x.issued = c.tasks) && !writesWait s && (match e with
    | .pe | .ge => decide (x.finished = c.tasks) && x.reissue.isEmpty
    | .se => x.worked
    | .te => x.worked && !outstandingOf s (.queue .te q)
        && s.fab.xfers.all (fun y => y.use != .copy q || decide (2 ≤ y.round))
    | .fe =>
      if c.opcode = 0x15 ∨ c.opcode = 0x16 then x.worked && (s.fab.exchanges.filter (fun y => y.q == q)).all exchangeDone
      else x.worked && !outstandingOf s (.queue .fe q))

def execCommandRetire (e : Engine) (q : Nat) (s : State) : Answer :=
  .next (match queueAt s e q with
    | none => s
    | some x =>
      match headOf x with
      | none => s
      | some c =>
        if x.state = 3 ∧ workDone s e q x c = true then settleQueue e q (retireHead e q x c s) else s)

end Sys2Proof.Machine
end

