-- ==== Sys2Proof/Machine/PowerCtl.lean ====
section
/-! DEFINITION. Power and cooling: caps, the bubble law, clock modes, throttle reasons and the last lines of defence
(file 19). The input's loss, the thermal reset and the coolant-flow stop are in BootCtl. -/
namespace Sys2Proof.Machine

/-! ### Register fields (Tables 19-8 to 19-12) -/

def capReg (s : State) : Nat := bitsOf s.regs.pwrCap 15 0
def brakeCapReg (s : State) : Nat := bitsOf s.regs.pwrCap 31 16
def currentLimit (s : State) : Nat := bitsOf s.regs.pwrLimits 7 0
def uvWarn (s : State) : Nat := bitsOf s.regs.pwrLimits 15 8
def dieThr (s : State) : Nat := bitsOf s.regs.pwrTherm 7 0
def dieHyst (s : State) : Nat := bitsOf s.regs.pwrTherm 11 8

/-- D3, which holds the power control, is out of reset (Table 20-4). -/
def powerRuns (s : State) : Bool := decide (4 ≤ s.boot.released)

/-- The least of a value and the values of a list that are set. -/
def leastSet (v : Nat) (l : List Nat) : Nat := l.foldl (fun m c => if c = 0 then m else min m c) v

/-- Caps and mode take effect: the lower value from all ports (R146). -/
def applyCaps (s : State) : State :=
  { s with pwr := { s.pwr with
    cap := leastSet (capReg s) (s.pwr.mgtCaps.map (·.1))
    brakeCap := leastSet (brakeCapReg s) (s.pwr.mgtCaps.map (·.2))
    mode := s.regs.pwrCtrl % 2 } }

/-- Values of a POWER_SET taken by its port: the PF's into PWR_CAP and PWR_CTRL, also after SEC_LOCK (R526), a management
port's held apart (R511). -/
def storePower (src : CmdSrc) (mode cap brake : Nat) (s : State) : State :=
  match src with
  | .ring _ _ _ =>
    let c := if cap = 0 then capReg s else cap
    let b := if brake = 0 then brakeCapReg s else brake
    { s with regs := { s.regs with
      pwrCap := b * 65536 + c, pwrCtrl := if mode = 0xFF then s.regs.pwrCtrl else mode } }
  | .mgt p =>
    { s with pwr := { s.pwr with mgtCaps := s.pwr.mgtCaps.modify p (fun (v : Nat × Nat) =>
        (if cap = 0 then v.1 else cap, if brake = 0 then v.2 else brake)) } }

/-! ### Throttle reasons (R435, R436) -/

/-- A reason that a state shows by itself; POWER_CAP and CURRENT are judged in the control interval. -/
def reasonHolds (s : State) (code : Nat) : Bool :=
  match code with
  | 3 => s.pwr.forced
  | 4 => decide (s.pwr.dieFloor ≠ 0)
  | 5 => s.mem.stackStates.any (fun k => decide (1 ≤ k.step))
  | 6 => s.pwr.uv
  | 7 => s.pwr.brake
  | 8 => s.pwr.stopped
  | _ => ((s.pwr.reasons[code - 1]?).map (·.active)).getD false

/-- One reason set acting or not: a start is counted, and posted once in a frame; outside a frame every start is. -/
def setReason (code : Nat) (on : Bool) (s : State) : State :=
  match s.pwr.reasons[code - 1]? with
  | none => s
  | some r =>
    if on && !r.active then
      let framed := inMode s .ready && s.herd.inFrame
      let r' : Throttle := { r with active := true, starts := r.starts + 1, lastStart := stampOf s, posted := framed }
      let s := { s with pwr := { s.pwr with reasons := s.pwr.reasons.set (code - 1) r' } }
      if framed && r.posted then s else postEvent 0 7 0 0xFFFF (natLe 1 code) s
    else { s with pwr := { s.pwr with reasons := s.pwr.reasons.set (code - 1) { r with active := on } } }

/-- Reasons 0x03 to 0x08 as the state stands, and whether one that holds boost back acts (R434). -/
def noteReasons (s : State) : State :=
  let s := (List.range 6).foldl (fun s i => setReason (i + 3) (reasonHolds s (i + 3)) s) s
  if (List.range 6).any (fun i => reasonHolds s (i + 3)) then { s with pwr := { s.pwr with frameHot := true } } else s

/-! ### The bubble law (R429 to R431) -/

/-- n of R431 for a target in 1/100 W, without floors. -/
def bubbleLaw (base measured prev target : Nat) : Nat :=
  let d : Int := 64 - prev
  let est : Int := (base * d + ((measured : Int) - base) * 64) * 100
  let t : Int := target * d
  let b : Int := base * d * 100
  if est ≤ t then 0
  else if t ≤ b then 56
  else min 56 (natOfInt ((64 * (est - t) + (est - b) - 1) / (est - b)))

/-- The sustained cap in force: the brake cap while BRAKE or INPUT_UV acts (R430, R482). -/
def sustainedCap (s : State) : Nat := if s.pwr.brake || s.pwr.uv then min s.pwr.cap s.pwr.brakeCap else s.pwr.cap

/-- The rule of activity of R430, against the powers of the last 100 intervals. -/
def capRule (recent : List Nat) (cap : Nat) (was : Bool) : Bool :=
  let sum := recent.foldl (· + ·) 0
  if cap * recent.length < sum then true
  else if sum * 100 ≤ 98 * cap * recent.length then false else was

/-- The current target in 1/100 W. -/
def currentTarget (s : State) (volts10mV : Nat) : Nat := currentLimit s * volts10mV

/-- The lowest active target, in 1/100 W (Table 19-3). -/
def lowestTarget (s : State) (volts10mV : Nat) : Nat :=
  let t := min 780000 (currentTarget s volts10mV)
  if s.pwr.capActive then min t (sustainedCap s * 100) else t

/-- CONTROL_INTERVAL: one interval of 1 µs measured, the bubble count set for the next, durations and reasons kept. -/
def execControlInterval (volts10mV milliamps watts : Nat) (s : State) : Answer :=
  .next (if !powerRuns s then s
    else
      let prev := s.pwr.n
      let recent := (watts :: s.pwr.recent).take 100
      let s := { s with pwr := { s.pwr with
        pIn := min 65535 watts, vIn := min 65535 volts10mV, iIn := milliamps, recent
        capActive := capRule recent (sustainedCap s) s.pwr.capActive
        capAlone := capRule recent s.pwr.cap s.pwr.capAlone
        framePeak := max s.pwr.framePeak watts
        reasons := s.pwr.reasons.map (fun r => if r.active then { r with duration := (r.duration + 1000) % 2 ^ 64 } else r)
        clock := if inHerd s then s.pwr.clock else 0 } }
      let law (t : Nat) : Nat := bubbleLaw s.fuse.baseW watts prev t
      let byCap := (s.pwr.capAlone && decide (law (s.pwr.cap * 100) ≠ 0)) || decide (law 780000 ≠ 0)
      let byCurrent := decide (law (currentTarget s volts10mV) ≠ 0)
      let n := max (law (lowestTarget s volts10mV)) (max s.pwr.dieFloor (if s.pwr.forced then 56 else 0))
      let s := { s with pwr := { s.pwr with
        n, frameCapped := s.pwr.frameCapped || ((byCap || byCurrent) && decide (n ≠ 0)) } }
      noteReasons (setReason 2 byCurrent (setReason 1 byCap s)))

/-! ### Clock and caps at a tick (R146, R434) -/

/-- The clock step that a tick chooses. -/
def nextClock (s : State) : Nat :=
  if s.pwr.mode = 0 || s.pwr.frameHot then 0
  else if s.pwr.frameCapped then s.pwr.clock - 1
  else if s.pwr.framePeak * 1000 ≤ 9 * lowestTarget s s.pwr.vIn then min 3 (s.pwr.clock + 1)
  else s.pwr.clock

/-- A tick: caps and mode as stored, the clock for the frame it opens, and the frame's record afresh. -/
def tickPower (s : State) : State :=
  let s := applyCaps s
  { s with pwr := { s.pwr with
    clock := nextClock s, framePeak := 0, frameCapped := false
    frameHot := (List.range 6).any (fun i => reasonHolds s (i + 3))
    reasons := s.pwr.reasons.map (fun r => { r with posted := false }) } }

/-! ### Last lines of defence (R437 to R441) -/

/-- An edge of BRAKE_N: a low level of at least 1 µs applies the brake cap at once, the rising edge lifts it. -/
def execBrakeN (low : Bool) (heldNs : Nat) (s : State) : Answer :=
  .next (if inMode s .off || (low && decide (heldNs < 1000)) then s
    else noteReasons { s with pwr := { s.pwr with brake := low, capActive := s.pwr.capActive || low } })

def execInputUv (volts10mV : Nat) (s : State) : Answer :=
  .next (if inMode s .off || decide (uvWarn s * 100 ≤ volts10mV) then s
    else noteReasons { s with pwr := { s.pwr with uv := true, capActive := true } })

def execInputUvClear (volts10mV : Nat) (s : State) : Answer :=
  .next (if decide ((uvWarn s + 1) * 100 < volts10mV) then noteReasons { s with pwr := { s.pwr with uv := false } } else s)

/-- A regulator raises its alert: the lowest state, n = 56. -/
def execVrAlert (regulator : Nat) (s : State) : Answer :=
  .next (if inMode s .off then s
    else noteReasons { s with pwr := { s.pwr with
      n := 56, forced := true
      alerts := if s.pwr.alerts.contains regulator then s.pwr.alerts else regulator :: s.pwr.alerts } })

/-- A regulator's alert has cleared; 1 ms after the last one normal control resumes from n = 56. -/
def execVrAlertClear (regulator : Nat) (s : State) : Answer :=
  .next (let alerts := s.pwr.alerts.filter (fun r => decide (r ≠ regulator))
    noteReasons { s with pwr := { s.pwr with alerts, forced := !alerts.isEmpty || s.pwr.thermalPending } })

/-- FAULT_N is driven low: a fatal error or a thermal reset holds it, or ROM hold 0x01 to 0x07 (Table 22-3). -/
def faultLow (s : State) : Bool := s.boot.faultHeld || decide (1 ≤ s.boot.hold ∧ s.boot.hold ≤ 7)

/-- The pin's edge after a change of its claimants. -/
def faultEdge (before s : State) : State := if faultLow before = faultLow s then s else emit (.faultN (faultLow s)) s

/-- The hottest reading of the dies. -/
def hottestDie (s : State) : Nat := s.pwr.temps.foldl max 0

/-- Training starts, unless FLOW_FAIL_N is low, which holds it (R467). -/
def beginTraining (s : State) : State :=
  if s.boot.flowLow then { s with boot := { s.boot with hold := 9, training := false, ready := true } }
  else { s with boot := { s.boot with hold := 0, training := true } }

/-- DIE_TEMP_READING: 115 °C or above forces the lowest state at once (R441); in the thermal hold, readings all below
DIE_THR − 10 °C start training. -/
def execDieTempReading (temps : List Nat) (s : State) : Answer :=
  .next (if !powerRuns s then s
    else
      let hot := temps.any (fun t => decide (115 ≤ t))
      let s := { s with pwr := { s.pwr with
        temps, thermalPending := hot, forced := hot || !s.pwr.alerts.isEmpty, n := if hot then 56 else s.pwr.n } }
      let s := noteReasons s
      if inMode s .rom && decide (s.boot.hold = 8) && temps.all (fun t => decide (t + 10 < dieThr s)) then
        beginTraining (faultEdge s { s with boot := { s.boot with thermalHold := false, faultHeld := false } })
      else s)

/-- Every 100 µs the die floor rises or falls by 8 (R440). -/
def execDieFloorStep (s : State) : Answer :=
  .next (if !powerRuns s || s.pwr.temps.isEmpty then s
    else
      let f := if dieThr s < hottestDie s then min 56 (s.pwr.dieFloor + 8)
        else if hottestDie s + dieHyst s < dieThr s then s.pwr.dieFloor - 8 else s.pwr.dieFloor
      noteReasons { s with pwr := { s.pwr with dieFloor := f } })

end Sys2Proof.Machine
end

