-- ==== Sys2Proof/Machine/Fleos.lean ====
section
/-! DEFINITION. The Fleos command set: intake checks, the order of commands, contexts, regions, programs, streams, batches,
policies and fences (file 05; R470, R471). -/
namespace Sys2Proof.Machine

/-! ### Check 3 of R120: defects of a descriptor, as (offset, reason) (R125) -/

/-- A reserved extent that is not zero: its lowest byte that is not. -/
def resDef (d : List Byte) (off len : Nat) : List (Nat × Nat) :=
  match (List.range len).find? (fun i => decide (fieldAt d (off + i) 1 ≠ 0)) with
  | some i => [(off + i, 1)]
  | none => []

/-- Reserved bits [hi:lo] of one byte. -/
def resBits (d : List Byte) (off hi lo : Nat) : List (Nat × Nat) :=
  if bitsOf (fieldAt d off 1) hi lo = 0 then [] else [(off, 1)]

/-- A defect of a field, by reason: 2 reserved code, 3 out of range, 4 misaligned. -/
def defIf (b : Bool) (off reason : Nat) : List (Nat × Nat) := if b then [(off, reason)] else []

def codeDef (d : List Byte) (off : Nat) (codes : List Nat) : List (Nat × Nat) := defIf (!codes.contains (fieldAt d off 1)) off 2

def rangeDef (d : List Byte) (off len lo hi : Nat) : List (Nat × Nat) :=
  defIf (!(decide (lo ≤ fieldAt d off len) && decide (fieldAt d off len ≤ hi))) off 3

/-- A size that is not a multiple: out of range. -/
def multDef (d : List Byte) (off len m : Nat) : List (Nat × Nat) := defIf (fieldAt d off len % m != 0) off 3

def alignDef (d : List Byte) (off m : Nat) : List (Nat × Nat) := defIf (fieldAt d off 8 % m != 0) off 4

/-- Commands that may carry a launch word (R122). -/
def mayLaunch (op : Nat) : Bool := op == 8 || op == 9 || op == 0xB || op == 0xD || op == 6 || op == 0x19

/-- Opcodes whose body begins with CTX. -/
def hasCtx (op : Nat) : Bool := decide (1 ≤ op ∧ op ≤ 0x10) || op == 0x14 || op == 0x1A || op == 0x1B

/-- The launch rule: R122, R41, and the LOFFSET of a BATCH_SET (R141). -/
def launchDefects (op : Nat) (d : List Byte) : List (Nat × Nat) :=
  let l := fieldAt d 8 8
  if !mayLaunch op then resDef d 8 8
  else if !launchValid l then resDef d 8 8
  else resBits d 15 6 0 ++ (if op = 0xD then resDef d 8 3 else [])

/-- A weight command's body; host granules lie at a multiple of 8 (R171). -/
def weightDefects (d : List Byte) : List (Nat × Nat) :=
  codeDef d 17 [1, 2] ++ rangeDef d 18 2 0 4095 ++ (if fieldAt d 17 1 = 2 then resDef d 31 1 else [])
  ++ (if fieldAt d 17 1 = 1 then alignDef d 24 8 else []) ++ multDef d 40 8 64 ++ resDef d 55 1 ++ resDef d 56 8

/-- The bodies of Tables 5-5, 5-7 and 5-8. A WEIGHT_REPLACE whose layers pass 4,095, which the manual gives no row, is out of
range at LAYER_COUNT (DESIGN CHOICE, log entry 70). -/
def bodyDefects (src : CmdSrc) (op : Nat) (d : List Byte) : List (Nat × Nat) :=
  let isMgt : Bool := match src with | .mgt _ => true | _ => false
  let isVf : Bool := match src with | .ring f _ _ => decide (f ≠ 0) | _ => false
  let mgtBuf : List (Nat × Nat) := if isMgt = true ∧ fieldAt d 24 8 ≠ 0 then
      (if fieldAt d 24 8 % 64 = 0 then [(24, 3)] else [(24, 4)]) else alignDef d 24 64
  match op with
  | 0x01 => resDef d 17 3 ++ rangeDef d 20 4 1 65536 ++ rangeDef d 24 2 0 4032 ++ rangeDef d 26 1 0 60 ++ resDef d 27 5
      ++ multDef d 32 8 (2 ^ 30) ++ resDef d 40 24
  | 0x02 => resDef d 17 47
  | 0x03 => codeDef d 17 [1, 2, 3] ++ rangeDef d 18 2 0 1023 ++ resDef d 20 4 ++ alignDef d 24 (2 ^ 21) ++ multDef d 32 8 (2 ^ 21)
      ++ (if fieldAt d 17 1 = 1 then resDef d 40 2 ++ resDef d 42 2 else resBits d 41 7 6 ++ resBits d 43 7 6) ++ resDef d 44 20
  | 0x04 => resDef d 17 1 ++ rangeDef d 18 2 0 1023 ++ resDef d 20 44
  | 0x05 => weightDefects d ++ resDef d 20 4
  | 0x06 => weightDefects d ++ rangeDef d 20 2 1 4096 ++ resDef d 22 2
      ++ defIf (decide (fieldAt d 18 2 ≤ 4095) && decide (4096 < fieldAt d 18 2 + fieldAt d 20 2)) 20 3
  | 0x07 => resDef d 17 1 ++ rangeDef d 18 2 0 63 ++ resDef d 20 4 ++ alignDef d 24 4096 ++ rangeDef d 32 4 0 (2 ^ 26) ++ resDef d 36 28
  | 0x08 => resDef d 17 1 ++ rangeDef d 18 2 0 63 ++ resDef d 20 44
  | 0x09 => codeDef d 17 [0, 1] ++ rangeDef d 18 2 0 63 ++ resDef d 20 44
  | 0x0A => rangeDef d 17 1 6 16 ++ resDef d 18 6 ++ alignDef d 24 4096 ++ alignDef d 32 8 ++ alignDef d 48 64 ++ resDef d 56 8
  | 0x0B | 0x0E => resDef d 17 3 ++ resDef d 24 40
  | 0x0C => resDef d 17 3 ++ alignDef d 24 4 ++ rangeDef d 32 4 1 4194304
      ++ (if fieldAt d 36 2 = 0xFFFF then resDef d 40 4 else resBits d 37 7 6) ++ resDef d 38 2 ++ resDef d 44 20
  | 0x0D => resBits d 17 6 6 ++ rangeDef d 18 2 0 63 ++ rangeDef d 20 2 0 1024 ++ resDef d 22 2 ++ alignDef d 24 4 ++ resDef d 32 32
  | 0x0F => codeDef d 17 [0, 1] ++ codeDef d 18 [0, 1] ++ rangeDef d 19 1 1 4 ++ rangeDef d 20 1 50 99 ++ resDef d 21 3
      ++ resDef d 31 1 ++ multDef d 32 8 (2 ^ 21) ++ resDef d 40 24
  | 0x10 => codeDef d 17 [1, 2, 3] ++ rangeDef d 22 2 1 4096 ++ rangeDef d 24 2 0 1024 ++ codeDef d 26 [0, 1] ++ resDef d 27 37
  | 0x11 => resDef d 16 1 ++ codeDef d 17 [0, 1] ++ resDef d 18 2 ++ (if fieldAt d 17 1 = 0 then resDef d 20 4 else [])
      ++ alignDef d 24 4096 ++ rangeDef d 32 4 64 (2 ^ 24) ++ resDef d 36 28
  | 0x12 => resDef d 16 1 ++ codeDef d 17 [0, 1] ++ resDef d 18 46
  | 0x13 => resDef d 16 4 ++ resDef d 29 35
  | 0x14 => (if isVf then [] else resDef d 16 1) ++ codeDef d 17 [1, 2, 3, 4, 5, 6] ++ resDef d 18 6 ++ mgtBuf
      ++ defIf (isMgt && decide (65536 < fieldAt d 32 4)) 32 3 ++ resDef d 36 28
  | 0x15 => resDef d 16 8 ++ mgtBuf
  | 0x16 | 0x17 => resDef d 16 48
  | 0x18 => resDef d 16 1 ++ codeDef d 17 [1, 2, 3] ++ defIf (fieldAt d 18 1 % 4 == 0) 18 3 ++ resBits d 18 7 2 ++ resDef d 19 5
      ++ alignDef d 24 64 ++ multDef d 32 8 64 ++ alignDef d 40 64 ++ (if fieldAt d 17 1 = 3 then [] else resDef d 48 8) ++ resDef d 56 8
  | 0x19 => resDef d 16 1 ++ codeDef d 17 [0, 1, 0xFF] ++ resDef d 18 2
      ++ (if fieldAt d 20 4 = 0 then [] else rangeDef d 20 4 1500 6000)
      ++ (if fieldAt d 24 4 = 0 then [] else rangeDef d 24 4 1500 6000) ++ resDef d 28 36
  | 0x1A => codeDef d 17 [0, 1, 2]
      ++ (if fieldAt d 17 1 = 2 then (if fieldAt d 18 2 = 0xFFFF then [] else resBits d 19 7 6) else resDef d 18 2) ++ resDef d 20 44
  | 0x1B => codeDef d 17 [0, 1] ++ (if fieldAt d 17 1 = 0 then resDef d 16 1 ++ resDef d 18 2 else rangeDef d 18 2 0 63) ++ resDef d 20 44
  | _ => []

/-- The defect reported: the lowest offset, then the lowest reason. -/
def worstDefect (ds : List (Nat × Nat)) : Option (Nat × Nat) :=
  ds.foldl (fun (b : Option (Nat × Nat)) x => match b with
    | none => some x
    | some y => if x.1 < y.1 ∨ (x.1 = y.1 ∧ x.2 < y.2) then some x else b) none

def descDefect (src : CmdSrc) (d : List Byte) : Option (Nat × Nat) :=
  let op := fieldAt d 0 1
  worstDefect (resDef d 1 3 ++ launchDefects op d ++ (if hasCtx op then resBits d 16 7 4 else []) ++ bodyDefects src op d)

/-! ### Structures that a descriptor names (R125, R133, R213, R473) -/

def planCount (b : List Byte) : Nat := min (fieldAt b 4 4) ((b.length - 64) / 16)

def planEntry (b : List Byte) (i : Nat) : List Byte := slice b (64 + 16 * i) 16

def planDevs (b : List Byte) : List Nat := (List.range (planCount b)).map (fun i => fieldAt (planEntry b i) 0 2 % 16384)

/-- Devices of the entries with a BELL code. -/
def planBells (b : List Byte) (code : Nat) : List Nat :=
  ((List.range (planCount b)).filter (fun i => decide (fieldAt (planEntry b i) 3 1 = code))).map
    (fun i => fieldAt (planEntry b i) 0 2 % 16384)

/-- Defects moved to an offset. -/
def atOffset (off : Nat) (ds : List (Nat × Nat)) : List (Nat × Nat) := ds.map (fun d => (off + d.1, d.2))

/-- Defects of one link-table entry (R372, Table 15-6). -/
def linkEntryDefects (e : List Byte) : List (Nat × Nat) :=
  codeDef e 0 [0, 1, 2] ++ resDef e 2 2 ++ (if fieldAt e 0 1 = 1 then resBits e 5 7 6 ++ resDef e 6 2 else [])

/-- Defects of module entry `i`, of its link table among them. -/
def planEntryDefects (b : List Byte) (i : Nat) : List (Nat × Nat) :=
  let e := planEntry b i
  let lo := fieldAt e 8 8
  let prev := (List.range i).foldl (fun m j => max m (fieldAt (planEntry b j) 0 2 % 16384 + 1)) 0
  atOffset (64 + 16 * i) (resBits e 1 7 6 ++ resBits e 2 7 2 ++ codeDef e 3 [0, 1, 2] ++ resDef e 4 4 ++ multDef e 8 8 8
    ++ defIf (decide (fieldAt e 0 2 % 16384 < prev)) 0 3 ++ defIf (decide (b.length < lo + 512)) 8 3)
  ++ (if b.length < lo + 512 then [] else
    (List.range 64).flatMap (fun n => atOffset (lo + 8 * n) (linkEntryDefects (slice b (lo + 8 * n) 8))))

/-- Every defect of a plan, as (offset in the plan, reason). -/
def planDefects (s : State) (b : List Byte) : List (Nat × Nat) :=
  let dep := fieldAt b 10 2
  defIf (decide (fieldAt b 0 2 ≠ 1)) 0 2 ++ resDef b 2 2 ++ rangeDef b 4 4 1 16384 ++ resBits b 9 7 6
  ++ (if dep = 0xFFFF then [] else resBits b 11 7 6) ++ resDef b 12 52
  ++ defIf (decide (b.length < 64 + 16 * fieldAt b 4 4)) 4 3
  ++ (List.range (planCount b)).flatMap (planEntryDefects b)
  ++ defIf (!(planDevs b).contains (devOf s)) 4 3
  ++ defIf (decide (planBells b 1 ≠ [fieldAt b 8 2 % 16384])) 8 3
  ++ defIf (decide (planBells b 2 ≠ if dep = 0xFFFF then [] else [dep])) 10 3

/-- Defect of a parameter block or its stop-sequence table: of several, which all count at one byte of the descriptor, the
lowest reason (R125, R213). -/
def paramsDefect (b seqs : List Byte) : Option Nat :=
  let h (off len : Nat) : Nat := fieldAt b off len
  let n := h 7 1
  let temp : F32 := BitVec.ofNat 32 (h 8 4)
  let topp : F32 := BitVec.ofNat 32 (h 12 4)
  let badTemp := decide (h 8 4 ≠ 0) && (ltF32 temp 0x3B800000 || ltF32 0x42800000 temp || isNan temp)
  let badTopp := decide (h 12 4 ≠ 0) && (!ltF32 0 topp || ltF32 0x3F800000 topp || isNan topp)
  let seqDef (i : Nat) : List (Nat × Nat) :=
    let e := slice seqs (72 * i) 72
    let len := fieldAt e 0 1
    let at_ := 256 + 72 * i
    defIf (decide (len < 1 ∨ 16 < len)) at_ 3 ++ (resDef e 1 7).map (fun x => (at_ + x.1, x.2))
      ++ (if len ≤ 16 then (resDef e (8 + 4 * len) (64 - 4 * len)).map (fun x => (at_ + x.1, x.2)) else [])
  let ds := defIf (decide (h 0 2 ≠ 1)) 0 2 ++ codeDef b 2 [0, 1] ++ codeDef b 3 [0, 1, 2]
    ++ defIf (decide (1024 < h 4 2)) 4 3 ++ rangeDef b 6 1 0 32 ++ rangeDef b 7 1 0 8 ++ defIf badTemp 8 3 ++ defIf badTopp 12 3
    ++ defIf (decide (4194304 < h 16 4)) 16 3
    ++ (if h 3 1 = 0 then resDef b 20 1 else rangeDef b 20 1 1 8) ++ resDef b 21 3
    ++ (if n = 0 then resDef b 32 8 else alignDef b 32 8) ++ (if h 3 1 = 2 then alignDef b 40 64 else resDef b 40 8)
    ++ resDef b 48 16
    ++ (if h 6 1 ≤ 32 then resDef b (64 + 4 * h 6 1) (128 - 4 * h 6 1)
        ++ ((List.range (h 6 1)).flatMap (fun i => defIf (decide (h (64 + 4 * i) 4 = 0xFFFFFFFF)) (64 + 4 * i) 3)) else [])
    ++ resDef b 192 64 ++ (if n ≤ 8 then (List.range n).flatMap seqDef else [])
  (worstDefect (ds.map (fun x => (0, x.2)))).map (·.2)

/-- A queue's list read from an image. -/
structure ImageList where
  engine : Engine
  queue : Nat
  cmds : List Cmd

def imageList (b : List Byte) (i : Nat) : Option ImageList :=
  let e := slice b (64 + 16 * i) 16
  match Engine.ofCode (fieldAt e 0 1) with
  | none => none
  | some en =>
    let off := fieldAt e 4 4
    let n := fieldAt e 8 4
    if 60 ≤ fieldAt e 1 1 ∨ fieldAt e 2 2 ≠ 0 ∨ fieldAt e 12 4 ≠ 0 ∨ off % 64 ≠ 0 ∨ n = 0 ∨ b.length < off + 64 * n then none
    else some { engine := en, queue := fieldAt e 1 1, cmds := (List.range n).map (fun j => slice b (off + 64 * j) 64) }

/-- A list that the image decides to be good, its bodies apart. -/
def listOk (ctx events : Nat) (l : ImageList) : Bool :=
  l.cmds.all (fun c => (listDefect l.engine ctx 0 events c).isNone)
  && ((l.cmds.getLast?).map (fun c => decide (Cmd.opcode c = 1 ∨ Cmd.opcode c = 2))).getD false

def usesLoop (l : ImageList) : Bool := l.cmds.any (fun c => Cmd.opcode c == 2)

def usesEnd (l : ImageList) : Bool := l.cmds.any (fun c => Cmd.opcode c == 1)

/-- PARAM in the range of its KIND (Table 4-8). -/
def fillParamOk (kind p : Nat) : Bool :=
  match kind with
  | 1 => decide (1 ≤ p ∧ p ≤ 65536)
  | 2 => p == 0 || p == 8 || p == 16 || p == 24
  | 3 | 4 => p == 0
  | _ => false

/-- A fill entry, with the queue it names: the lowest engine whose queue of that number holds its target (log entry 25). -/
def imageFill (ls : List ImageList) (e : List Byte) : Option Fill :=
  let kind := fieldAt e 0 1
  let q := fieldAt e 1 1
  let i := fieldAt e 2 2
  let g := fieldAt e 4 2
  if fieldAt e 12 4 ≠ 0 ∨ 4096 ≤ g ∨ fillParamOk kind (fieldAt e 8 4) = false then none
  else
    match [Engine.pe, .ge, .se, .te, .fe].find? (fun en => ls.any (fun l => l.engine == en && l.queue == q
        && (match l.cmds[i]? with | some c => Cmd.fillFlag c && Cmd.fillGroup c == g | none => false))) with
    | none => none
    | some en =>
      some { kind, engine := en, queue := q, cmd := i, group := g, source := fieldAt e 6 2, param := fieldAt e 8 4 }

/-- A command with `addr` of its place in the fields that a fill entry writes as addresses, and no task where one writes TASKS
for itself (Table 4-8). -/
def filledWith (addr : Nat → Nat) (f : Fill) (c : Cmd) : Cmd :=
  let put (p : Nat) (c : Cmd) : Cmd := splice c (32 + p) (natLe 8 (addr p))
  match f.kind with
  | 1 => splice c 20 (natLe 3 0)
  | 2 => put f.param c
  | 4 => put 8 (put 0 c)
  | _ => c

/-- The bodies of a list, as far as the image decides them: what fill entries write is judged as an address that no rule can
turn away (R133; DEDUCED, log entry 25). -/
def bodiesOk (s : State) (events : Nat) (fs : List Fill) (l : ImageList) : Bool :=
  l.cmds.zipIdx.all (fun c =>
    let mine := fs.filter (fun f => f.engine == l.engine && f.queue == l.queue && f.cmd == c.2)
    let good (addr : Nat → Nat) : Bool := bodyStatic s l.engine events (mine.foldl (fun x f => filledWith addr f x) c.1)
    bodyStatic s l.engine events c.1 || good (fun _ => 0) || good (fun p => p / 8 * 2 ^ 38))

/-- What an image says, or the index of the entry that fails. -/
structure Image where
  lists : List ImageList
  events : Nat
  fills : List Fill
  isFrame : Bool

def firstNone {α β : Type} (f : α → Option β) : (i : Nat) → List α → Sum Nat (List β)
  | _, [] => .inr []
  | i, x :: r =>
    match f x with
    | none => .inl i
    | some y =>
      match firstNone f (i + 1) r with
      | .inl j => .inl j
      | .inr ys => .inr (y :: ys)

def readImage (s : State) (ctx : Nat) (b : List Byte) : Sum Nat Image :=
  let h (off len : Nat) : Nat := fieldAt b off len
  let n := h 2 2
  if b.length < 64 ∨ h 0 2 ≠ 1 ∨ n < 1 ∨ 300 < n ∨ h 6 2 ≠ 0 ∨ 1048576 < h 8 4 ∨ h 12 4 ≠ 0 ∨ h 16 8 % 16 ≠ 0
      ∨ leNat (slice b 24 40) ≠ 0 ∨ b.length < 64 + 16 * n ∨ (h 8 4 ≠ 0 ∧ b.length < h 16 8 + 16 * h 8 4) then .inl 0
  else
    match firstNone (imageList b) 0 (List.range n) with
    | .inl i => .inl i
    | .inr ls =>
      match firstNone (fun l => if listOk ctx (h 4 2) l then some l else none) 0 ls with
      | .inl i => .inl i
      | .inr ls =>
        let frame := ls.any usesLoop
        let keys := ls.map (fun l => queueKey l.engine l.queue)
        if (frame && ls.any usesEnd) || !decide keys.Nodup then .inl 0
        else if frame && ls.any (fun l => decide (1 < (l.cmds.filter Cmd.guardFlag).length)) then .inl 0
        else
          match firstNone (fun i => imageFill ls (slice b (h 16 8 + 16 * i) 16)) 0 (List.range (h 8 4)) with
          | .inl i => .inl i
          | .inr fs =>
            match ls.findIdx? (fun l => !bodiesOk s (h 4 2) fs l) with
            | some i => .inl i
            | none => .inr { lists := ls, events := h 4 2, fills := fs, isFrame := frame }

/-- The defect of the structure that a descriptor names, as (byte of the field that names it, rest of DETAIL, RESULT): the image,
the parameter block or the plan (R125, R133, R213, R473). -/
def namedDefect (s : State) (d : List Byte) : Option (Nat × Nat × Nat) :=
  let op := fieldAt d 0 1
  let a := fieldAt d 24 8
  let n := fieldAt d 32 4
  if op = 7 then
    if hostUnread s a n then none
    else
      match readImage s (fieldAt d 16 1 % 16) (hostBytes s a n) with
      | .inl i => some (24, i % 65536 * 65536 + 0x600, 0)
      | .inr _ => none
  else if op = 0xA then
    let b := hostBytes s (fieldAt d 48 8) 256
    let k := min 8 (fieldAt b 7 1)
    if hostUnread s (fieldAt d 48 8) 256 || (decide (k ≠ 0) && hostUnread s (fieldAt b 32 8) (72 * k)) then none
    else (paramsDefect b (hostBytes s (fieldAt b 32 8) (72 * k))).map (fun r => (48, r * 256, 0))
  else if op = 0x11 then
    if hostUnread s a n then none
    else (worstDefect (planDefects s (hostBytes s a n))).map (fun x => (24, x.2 * 256, x.1))
  else none

/-- The structure can be read for a descriptor whose own worst defect is at `off`: that lies behind the address, and is not the
length beside it. -/
def namedRead (op off : Nat) : Bool :=
  if op = 0xA then decide (48 < off) else decide (24 < off ∧ off ≠ 32)

/-- Check 3 of R120: DETAIL and RESULT of the defect reported, of the descriptor's own and of the structure it names the one at
the lower byte (R125). -/
def checkThree (s : State) (src : CmdSrc) (d : List Byte) : Option (Nat × Nat) :=
  let named := (namedDefect s d).map (fun k => (k.2.1 + k.1, k.2.2))
  match descDefect src d with
  | none => named
  | some (off, r) =>
    match (if namedRead (fieldAt d 0 1) off then named else none) with
    | some k => some k
    | none => some (r * 256 + off, 0)

/-- The ports of Table 5-3, with the codes that a port may not use (R126, R145, R146). -/
def portOk (src : CmdSrc) (d : List Byte) : Bool :=
  let op := fieldAt d 0 1
  match src with
  | .mgt _ => op == 0x14 || op == 0x15 || op == 0x16 || (op == 0x19 && fieldAt d 17 1 == 0xFF)
  | .ring f _ _ =>
    if f = 0 then true
    else decide (3 ≤ op ∧ op ≤ 0x10) || (op == 0x14 && decide (fieldAt d 17 1 = 1 ∨ fieldAt d 17 1 = 2)) || op == 0x15
      || op == 0x1A || (op == 0x1B && fieldAt d 17 1 == 1)

/-- Check 4: a VF names a context that is not its own. -/
def foreignCtx (src : CmdSrc) (d : List Byte) : Bool :=
  match src with
  | .ring f _ _ => decide (f ≠ 0 ∧ fieldAt d 16 1 % 16 + 1 ≠ f) && hasCtx (fieldAt d 0 1)
  | .mgt _ => false

/-- Checks 1 to 4 of R120: status, DETAIL and RESULT of the first that fails. The structure that a descriptor without other
fault names is judged when the command runs (checkRun). -/
def checkDesc (s : State) (src : CmdSrc) (d : List Byte) : Option (Nat × Nat × Nat) :=
  let op := fieldAt d 0 1
  if op = 0 ∨ 0x1B < op then some (3, 0x200, 0)
  else if !portOk src d then some (2, 0, 0)
  else if (descDefect src d).isNone && !foreignCtx src d then none
  else
    match checkThree s src d with
    | some k => some (3, k)
    | none => some (2, 16, 0)

/-- A descriptor accepted at its place in the order, judged by checks 1 to 4 (R78, R120, R124). -/
def acceptDesc (src : CmdSrc) (d : List Byte) (mgtTag : Nat) (s : State) : State :=
  let c : FleosCmd :=
    { src, order := s.nextOrder, desc := slice d 0 64, phase := .waiting, time := 0, frame := s.herd.frame, progress := 0
      note := 0, chain := Chain.none, mgtTag, carried := none, slipOut := none }
  let s := { s with cmds := s.cmds ++ [c], nextOrder := s.nextOrder + 1 }
  match checkDesc s src (slice d 0 64) with
  | some (st, detail, result) => finish c.order st detail result s
  | none => s

/-! ### When a command runs (R123, R136, R443, R470, R471) -/

/-- The context a command names: every command of a VF names that function's own (R498). -/
def FleosCmd.named (c : FleosCmd) : Option Nat :=
  match c.src with
  | .mgt _ => none
  | .ring f _ _ =>
    if f ≠ 0 then some (f - 1)
    else if hasCtx c.opcode && c.opcode != 0x14 && (c.opcode != 0x1B || fieldAt c.desc 17 1 == 1) then some c.ctx else none

/-- An earlier command of the same context waits to run, or is a CTX_DESTROY that ends the context, or a fence holds the ring
(R123, R136). -/
def heldBack (s : State) (c : FleosCmd) : Bool :=
  s.cmds.any (fun x => decide (x.order < c.order) && x.isOpen
    && (((x.opcode == 2 || (x.phase == .waiting && x.opcode != 0x1A)) && c.named.isSome && x.named == c.named)
      || (x.opcode == 0x1A && (match x.src, c.src with
          | .ring f r _, .ring g q _ => f == g && r == q
          | _, _ => false))))

/-- Commands that Fleos runs during a coolant-flow stop (R443). -/
def runsStopped (op : Nat) : Bool := op == 0x14 || op == 0x15 || op == 0x19 || op == 0x12 || op == 0x1B

/-- Roles of Table 1-8. -/
def roleOk (role op : Nat) : Bool :=
  match op with
  | 8 | 0xA => role != 2
  | 0xC => role == 0 || role == 3
  | 0xD => role == 1 || role == 3
  | _ => true

/-- States of Table 21-4; the row of a frame program's PROGRAM_START is judged with the program. -/
def stateOk (s : State) (op : Nat) : Bool :=
  let m := s.boot.mode
  let serving := m == .trained || m == .herd || m == .ready
  match op with
  | 0x14 | 0x15 => m != .off
  | 0x19 => serving || m == .recovery
  | 0x0C | 0x0D | 0x06 | 0x13 => m == .ready
  | 0x11 => m == .trained
  | 0x12 => m == .herd || m == .ready
  | 0x17 | 0x18 => m == .recovery
  | _ => serving

/-- The frame settings a FRAME_POLICY forms: period and guard in ns, SLIP_MAX (R40). -/
def policySettings (s : State) (d : List Byte) : Nat × Nat × Nat :=
  let p := if fieldAt d 20 4 = 0 then s.herd.period else fieldAt d 20 4 * 1000
  let g := if fieldAt d 24 4 = 0 then s.herd.setGuard else fieldAt d 24 4 * 1000
  (p, g, if fieldAt d 28 1 = 0 then s.herd.slipMax else fieldAt d 28 1)

/-- The field of a FRAME_POLICY that breaks a range, of the settings judged together. -/
def policyDefect (s : State) (d : List Byte) : Option Nat :=
  let (p, g, m) := policySettings s d
  if p < 50000 ∨ 16384000 < p then some 20
  else if g < 3000 ∨ p / 4000 * 1000 < g then some (if fieldAt d 24 4 = 0 then 20 else 24)
  else if m < 1 ∨ 64 < m then some 28 else none

/-- The context exists for a command: it has been created, and no earlier CTX_DESTROY is ending it (R130). -/
def ctxLives (s : State) (ctx order : Nat) : Bool :=
  (ctxAt s ctx).isSome && !s.cmds.any (fun x => x.opcode == 2 && x.phase == .running && x.ctx == ctx && decide (x.order < order))

/-- The part of check 3 that is judged when the command runs: the structure it names, and the settings a FRAME_POLICY forms. -/
def runDefect (s : State) (d : List Byte) : Option (Nat × Nat) :=
  if fieldAt d 0 1 = 0x13 then (policyDefect s d).map (fun off => (0x300 + off, 0))
  else (namedDefect s d).map (fun k => (k.2.1 + k.1, k.2.2))

/-- Checks 3 and 5 to 7 of R120 as far as they are common: status, DETAIL and RESULT of the first that fails. -/
def checkRun (s : State) (c : FleosCmd) : Option (Nat × Nat × Nat) :=
  let op := c.opcode
  match runDefect s c.desc with
  | some k => some (3, k)
  | none =>
    match (match c.named with
      | some x => if op = 1 ∨ ctxLives s x c.order = true then none else some (5, x, 0)
      | none => none) with
    | some r => some r
    | none =>
      if !roleOk s.boot.straps.role op then some (4, 0x800, 0)
      else if !stateOk s op || (launchValid (fieldAt c.desc 8 8) && !inMode s .ready)
          || (decide (s.regs.dbgHold ≠ 0) && op != 0x14 && op != 0x15)
          || (s.mgt.unlocked && (op == 1 || op == 0x11))
          || (op == 0x15 && s.boot.hold == 1) then some (4, 0xB00, 0)
      else none

/-- A read that the command makes of host memory would go over an Insecure stream: it waits (R501). -/
def hostWaits (s : State) (c : FleosCmd) : Bool :=
  let op := c.opcode
  ((op == 7 || op == 0x11 || op == 0xC || op == 0xD) && insecureAt s (fieldAt c.desc 24 8))
  || ((op == 5 || op == 6) && c.wSource == 1 && insecureAt s c.wSrc)
  || (op == 0xA && (insecureAt s (fieldAt c.desc 48 8) || insecureAt s (fieldAt (hostBytes s (fieldAt c.desc 48 8) 256) 32 8)))

/-- A Fleos command runs: what it does when it first runs, and when its row comes again while it is running. A command that
must wait stays as it is. -/
def runCmd (op : Nat) (src : CmdSrc) (first again : FleosCmd → State → State) (s : State) : Answer :=
  .next (match cmdOf s src with
    | none => s
    | some c =>
      if c.opcode ≠ op then s
      else
        match c.phase with
        | .done _ _ _ => s
        | .running => again c s
        | .waiting =>
          if heldBack s c || (s.pwr.stopped && !runsStopped op) || hostWaits s c then s
          else
            match checkRun s c with
            | some (st, d, r) => finish c.order st d r s
            | none => first c (updCmd c.order (fun x => { x with phase := .running }) s))

/-- The row again has nothing to do. -/
def noAgain (_ : FleosCmd) (s : State) : State := s

/-- A launch time has come (R42, R122). -/
def launchCome (s : State) (c : FleosCmd) : Bool :=
  let l := fieldAt c.desc 8 8
  if !launchValid l then true
  else if !s.herd.inFrame then false
  else
    match launchTarget l c.frame with
    | some k => decide (tickOf s.herd k + launchOffset l ≤ s.herd.time)
    | none => true

/-- A structure read from host memory ends poisoned: a record whose class the manual does not name, and POISONED with its
number (Table 18-3). -/
def finishPoisoned (c : FleosCmd) (addr : Nat) (s : State) : State :=
  let (k, s) := takeNat 31 s
  let s := recordErr { blankErr (k + 1) with unitKind := 6, ctx := c.named.getD 0xFF, addr } s
  finish c.order 6 (lastErrOf s (k + 1)) 0 s

/-! ### Ends of streams and contexts (R93, R130, R139) -/

/-- A closing command of a stream ends; every prompt of the stream still running completes with what it has processed, and a
closing command accepted before this one took effect that has not run notes that it will find the stream ended (R123, R139). -/
def finishClosers (number result : Nat) (s : State) : State :=
  s.cmds.foldl (fun s c =>
    if fieldAt c.desc 20 4 = number then
      match c.opcode, c.phase with
      | 0x0C, .running => finish c.order 0 1 (c.progress + 0xFFFFFFFF * 2 ^ 32) s
      | 0x0B, .running | 0x0E, .running => finishOk c.order result s
      | 0x0B, .waiting | 0x0E, .waiting => updCmd c.order (fun x => { x with note := result + 1 }) s
      | _, _ => s
    else s) s

/-- A stream ends with its closing commands: RESULT is the tokens it emitted. -/
def closeStream (slot stop : Nat) (s : State) : State :=
  match streamAt s slot with
  | none => s
  | some x => finishClosers x.number x.emitted (endStream slot stop s)

/-- Queues of a context as they stand. -/
def ctxQueues (s : State) (ctx : Nat) : List Queue := (s.eng.queues.filter (fun e => e.2.ctx == ctx)).map (·.2)

/-- No queue of the context runs a command. -/
def queuesStopped (s : State) (ctx : Nat) : Bool := (ctxQueues s ctx).all (fun x => x.state != 3)

/-- The coherent regions of a context that ends: in effect no longer, their granules recalled (Table 16-10). -/
def recallRegions (ctx : Nat) (s : State) : State :=
  match ctxAt s ctx with
  | none => s
  | some c => c.regions.foldl (fun s r =>
      if r.2.kind = 3 then
        recallExtent r.2.addr r.2.size
          (updCtx ctx (fun x => { x with regions := tabUpd x.regions r.1 (fun r => { r with live := false }) }) s)
      else s) s

/-- Step 1 of R130: a stop request to every queue of the context; once none runs, its coherent granules are recalled. -/
def stopCtx (ctx : Nat) (s : State) : State :=
  match ctxAt s ctx with
  | none => s
  | some c =>
    let s := c.programs.foldl (fun s p => requestStop p.2 s) s
    if queuesStopped s ctx then recallRegions ctx s else s

/-- No queue of the context runs a command, and no copy of a granule of its coherent regions may be left. -/
def ctxStopped (s : State) (ctx : Nat) : Bool :=
  queuesStopped s ctx && (match ctxAt s ctx with
    | none => true
    | some c => c.regions.all (fun r => decide (r.2.kind ≠ 3) || !copiesIn s r.2.addr r.2.size))

/-- Unbinds the queues of a program: their lists, tasks, transfers and exchanges go. -/
def unbindProgram (p : Program) (s : State) : State :=
  p.queues.foldl (fun s k =>
    let s := freeUnits k.1 k.2 (dropWork k.1 k.2 s)
    { s with eng := { s.eng with
      queues := tabDel s.eng.queues (queueKey k.1 k.2)
      tasks := s.eng.tasks.filter (fun t => !(t.engine == k.1 && t.queue == k.2)) } }) s

/-- The counters that end with a context. -/
def dropCtxCounters (ctx : Nat) (s : State) : State :=
  { s with counters := s.counters.filter (fun e =>
      let g := e.1 / 2 ^ 48
      let sc := e.1 % 2 ^ 32
      !((g == 2 && sc / 2 ^ 24 == ctx) || ((g == 4 || g == 5 || g == 9) && sc == ctx) || (g == 6 && sc / 2 ^ 16 == ctx)
        || (g == 7 && sc / 256 == ctx) || (g == 14 && sc == ctx))) }

/-- A command that belongs to a context that ends: not a CTX_CREATE that waits to make it anew, nor what follows it (R123). -/
def endsWith (s : State) (ctx : Nat) (x : FleosCmd) : Bool :=
  x.named == some ctx && x.isOpen
  && !s.cmds.any (fun y => y.opcode == 1 && y.phase == .waiting && y.named == some ctx && decide (y.order ≤ x.order))

/-- Steps 2 to 5 of R130: the streams end, the commands complete, what the context holds is freed, the event is posted. -/
def endContext (ctx : Nat) (skip : Option Nat) (aborted : FleosCmd → Option Nat) (s : State) : State :=
  match ctxAt s ctx with
  | none => s
  | some c =>
    let s := s.streams.foldl (fun s x => if x.2.ctx = ctx then endStream x.1 5 s else s) s
    let own := s.cmds.filter (fun x => skip != some x.order && x.isOpen && ((aborted x).isSome || endsWith s ctx x))
    let s := own.foldl (fun s x =>
      match aborted x with
      | some d => finish x.order 1 d 0 s
      | none => finish x.order 5 ctx 0 s) s
    let s := c.programs.foldl (fun s p => unbindProgram p.2 s) s
    let s := { s with
      contexts := tabDel s.contexts ctx
      due := s.due.filter (fun d => match d with
        | .regionIn x _ _ => x != ctx
        | .regionOut x _ _ => x != ctx
        | .policy x _ _ _ _ => x != ctx
        | .close _ cmd _ => ((cmdNo s cmd).map (·.isOpen)).getD false
        | .batch cmd _ _ => ((cmdNo s cmd).map (·.isOpen)).getD false
        | .power _ => true)
      fab := { s.fab with
        xfers := s.fab.xfers.filter (fun x => match x.use with
          | .sched y _ _ _ => y != ctx
          | .spill y _ _ _ => y != ctx
          | .ret y _ _ => y != ctx
          | .weight y => y != ctx
          | _ => true)
        exchanges := s.fab.exchanges.filter (fun x => x.ctx != ctx)
        readies := s.fab.readies.filter (fun p => p.ctx != ctx) } }
    postEvent (ctx + 1) 9 0 0xFFFF (natLe 1 ctx) (dropCtxCounters ctx s)

/-! ### Contexts (R129, R130) -/

/-- A context as CTX_CREATE makes it: its quotas, and nothing else yet (R129, Table 5-5; policies at their defaults, R137). -/
def newContext (d : List Byte) : Context :=
  { streamQuota := fieldAt d 20 4, eventQuota := fieldAt d 24 2, queueQuota := fieldAt d 26 1, memQuota := fieldAt d 32 8
    regions := [], layers := [], generation := 0, generationAtTick := 0, barrier := none, poisonedLayers := [], programs := []
    batches := [], spillMode := 1, spillFormat := 1, lookahead := 1, highPct := 90, t2Base := 0, t2Size := 0, pool := none
    residency := [], hotPools := [], mailboxes := [], fenceEpoch := 0, epochs := [], epochFails := [], exchangeRuns := [] }

/-- The quotas of the open contexts and of a further one stay within the module's totals (R129). -/
def quotasFit (s : State) (d : List Byte) : Bool :=
  let sum (g : Context → Nat) : Nat := s.contexts.foldl (fun n x => n + g x.2) 0
  decide (sum (·.streamQuota) + fieldAt d 20 4 ≤ 65536) && decide (sum (·.eventQuota) + fieldAt d 24 2 ≤ 4032)
  && decide (sum (·.queueQuota) + fieldAt d 26 1 ≤ 60) && decide (sum (·.memQuota) + fieldAt d 32 8 ≤ 1920 * 2 ^ 30)

def execCtxCreate (src : CmdSrc) (s : State) : Answer :=
  runCmd 1 src (fun c s =>
    if (ctxAt s c.ctx).isSome then finishNoRes c.order 0xA s
    else if !quotasFit s c.desc then finishNoRes c.order 9 s
    else
      let s := flushCache s
      finishOk c.order 0 { s with contexts := tabSet s.contexts c.ctx (newContext c.desc) }) noAgain s

/-- CTX_DESTROY: stop requests first; its row again ends the context once no queue of it runs a command. -/
def execCtxDestroy (src : CmdSrc) (s : State) : Answer :=
  let go (c : FleosCmd) (s : State) : State :=
    let s := stopCtx c.ctx s
    if ctxStopped s c.ctx then finishOk c.order 0 (endContext c.ctx (some c.order) (fun _ => none) s) else s
  runCmd 2 src go go s

/-! ### Regions (R131) -/

def rangesMeet (a n b m : Nat) : Bool := decide (a < b + m) && decide (b < a + n)

/-- A region takes effect, and its REGION_MAP completes. -/
def regionLive (ctx region cmd : Nat) (s : State) : State :=
  finishOk cmd 0 (updCtx ctx (fun x => { x with regions := tabUpd x.regions region (fun r => { r with live := true }) }) s)

/-- A region is no longer in effect; it goes, and its REGION_UNMAP completes, when its coherent granules have been recalled
(Table 16-10). -/
def regionGone (ctx region cmd : Nat) (s : State) : State :=
  match (ctxAt s ctx).bind (fun x => tabGet x.regions region) with
  | none => finishBad cmd 18 5 s
  | some r =>
    if r.unmap.isSome then finishBad cmd 18 5 s
    else freeRegions (recallExtent r.addr r.size (updCtx ctx (fun x => { x with
      regions := tabUpd x.regions region (fun r => { r with live := false, unmap := some cmd }) }) s))

/-- Every region of every context. -/
def allRegions (s : State) : List Region := s.contexts.flatMap (fun y => y.2.regions.map (·.2))

def regionBytes (l : List Region) : Nat := l.foldl (fun t r => t + r.size) 0

/-- The region a REGION_MAP describes. -/
def mappedRegion (d : List Byte) : Region :=
  { kind := fieldAt d 17 1, addr := fieldAt d 24 8, size := fieldAt d 32 8, peerFirst := fieldAt d 40 2, peerLast := fieldAt d 42 2
    live := false, leaving := false, unmap := none }

/-- It meets another region, its number is in use, or it leaves T1 (R131). -/
def regionClash (s : State) (x : Context) (reg : Nat) (r : Region) : Bool :=
  (allRegions s).any (fun k => rangesMeet r.addr r.size k.addr k.size) || (tabGet x.regions reg).isSome
  || decide (0x1E000000000 < r.addr + r.size)

/-- It exceeds the memory quota, or the 16 GiB of coherent regions (R131, R397). -/
def regionOver (s : State) (x : Context) (r : Region) : Bool :=
  decide (x.memQuota < regionBytes (x.regions.map (·.2)) + r.size)
  || (r.kind == 3 && decide (2 ^ 34 < regionBytes ((allRegions s).filter (fun k => k.kind == 3)) + r.size))

def execRegionMap (src : CmdSrc) (s : State) : Answer :=
  runCmd 3 src (fun c s =>
    match ctxAt s c.ctx with
    | none => s
    | some x =>
      let reg := fieldAt c.desc 18 2
      let r := mappedRegion c.desc
      if regionClash s x reg r then finishNoRes c.order 0xA s
      else if regionOver s x r then finishNoRes c.order 9 s
      else
        let s := updCtx c.ctx (fun x => { x with regions := tabSet x.regions reg r }) s
        if inMode s .ready then { s with due := s.due ++ [.regionIn c.ctx reg c.order] } else regionLive c.ctx reg c.order s)
    noAgain s

/-- The module's own local address that a remote address names. -/
def ownAddr (s : State) (a : Nat) : List Nat := if devField a = devOf s then [localField a] else []

def fieldsAt (b : List Byte) (offs : List Nat) : List Nat := offs.map (fun o => fieldAt b o 8)

/-- Local addresses of a layer routing descriptor and of what it names (Table 11-3). -/
def lrdAddrs (s : State) (a : Nat) : List Nat :=
  let d := peek s a 512
  a :: fieldsAt d [32, 48, 56, 64, 72, 80, 88, 96, 112] ++ (if Lrd.resid d then [Lrd.residAddr d] else [])
  ++ (if Lrd.coldBase d = 0 then [] else ownAddr s (Lrd.coldBase d)) ++ Lrd.hotBase d

/-- Local addresses of a tile command: its program, its bases, and the shadow weights of its guard descriptor (R152, R196). -/
def tileAddrs (s : State) (c : Cmd) : List Nat :=
  let bases := fieldsAt c [40, 48, 56]
  let prog := c.body 32 8
  let pg := progPg s prog (min (fieldAt (peek s prog 64) 2 2) 1024)
  let g := ((guardAt prog pg).map (fun a => peek s a 64)).getD []
  let shadow (off : Nat) : List Nat := if fieldAt g off 8 = 0 then [] else bases.map (fun b => (b + fieldAt g off 8) % 2 ^ 64)
  prog :: bases ++ (if pg = 0 then [] else shadow 24 ++ shadow 32)

/-- Local addresses of a SCHEDULE bind's table. -/
def tableAddrs (s : State) (a : Nat) : List Nat :=
  a :: (List.range (min (fieldAt (peek s a 64) 4 4) 65536)).flatMap (fun i =>
    let e := schedEntry (peek s (a + 64 + 64 * i) 64) 0
    e.dst :: if e.srcRemote then ownAddr s e.src else [e.src])

/-- Local addresses that a command names: the address fields of its body, and those of the structures these name (DEDUCED, log
entry 24). -/
def namedAddrs (s : State) (e : Engine) (c : Cmd) : List Nat :=
  match e, c.opcode with
  | .pe, 0x10 | .ge, 0x10 => tileAddrs s c
  | .se, 0x30 => fieldsAt c [40]
  | .se, 0x31 => fieldsAt c [40, 56]
  | .se, op => if op ≤ 2 then [] else lrdAddrs s (c.body 32 8) ++ (if c.body 40 8 = 0 then [] else fieldsAt c [40])
  | .te, 0x10 =>
    let one (off i : Nat) : List Nat := if bitOf (c.body 52 1) i then ownAddr s (c.body off 8) else [c.body off 8]
    one 32 0 ++ one 40 1
  | .te, 0x11 => fieldsAt c [32, 40] ++ replicaDests s c
  | .te, 0x12 => if c.body 40 1 = 1 then tableAddrs s (c.body 32 8) else []
  | .te, 0x40 => let d := peek s (c.body 32 8) 224; c.body 32 8 :: (readPool d).tableBase :: (readPool d).frameBase
  | .te, 0x41 => fieldsAt c [40, 48]
  | .te, 0x42 => fieldsAt c [40, 56]
  | .fe, 0x10 | .fe, 0x11 => c.body 40 8 :: ownAddr s (c.body 32 8)
  | .fe, 0x12 => (if c.body 56 8 = 0 then [] else fieldsAt c [56]) ++ ownAddr s (atomicRemote c)
  | .fe, 0x13 => fieldsAt c [40]
  | .fe, 0x14 => if c.body 32 1 = 1 then fieldsAt c [40] else []
  | .fe, 0x15 => c.body 32 8 :: (match readCd s (c.body 32 8) with
    | some x => ((x.sends ++ x.recvs).filter (fun r => r.2 != 0)).map (·.1)
    | none => [])
  | .fe, 0x16 => lrdAddrs s (c.body 32 8)
  | _, _ => []

/-- A loaded program names a region: an address of one of its commands, or of the schedule it has bound, lies in it. -/
def namesRegion (s : State) (x : Context) (r : Region) : Bool :=
  let hit (a : Nat) : Bool := rangesMeet a 1 r.addr r.size
  x.programs.any (fun p =>
    p.2.queues.any (fun k => match queueAt s k.1 k.2 with
      | some q => q.list.any (fun c => (namedAddrs s k.1 c).any hit)
      | none => false)
    || (match p.2.schedule with
      | some t => t.entries.any (fun e => hit e.dst || (if e.srcRemote then (ownAddr s e.src).any hit else hit e.src))
      | none => false))

def execRegionUnmap (src : CmdSrc) (s : State) : Answer :=
  runCmd 4 src (fun c s =>
    let reg := fieldAt c.desc 18 2
    match (ctxAt s c.ctx).bind (fun x => (tabGet x.regions reg).map (fun r => (x, r))) with
    | none => finishBad c.order 18 5 s
    | some (x, r) =>
      if namesRegion s x r then finishNoRes c.order 0xA s
      else if inMode s .ready then
        let s := updCtx c.ctx (fun x => { x with regions := tabUpd x.regions reg (fun r => { r with leaving := true }) }) s
        { s with due := s.due ++ [.regionOut c.ctx reg c.order] }
      else regionGone c.ctx reg c.order s) noAgain s

/-! ### PROGRAM_LOAD (R116, R133) -/

/-- The lowest event from which `n` are free, below 4,032. RESULT is one base, so they lie in a row; where no such row is free
PROGRAM_LOAD finds the quota exhausted (DESIGN CHOICE, log entry 70). -/
def freeEvents (s : State) (skip : Nat × Nat) (n : Nat) : Option Nat :=
  let used := s.contexts.flatMap (fun x => (x.2.programs.filter (fun p => decide ((x.1, p.1) ≠ skip))).map (fun p =>
    (p.2.eventBase, p.2.eventCount)))
  let ok (a : Nat) : Bool := decide (a + n ≤ 4032) && used.all (fun u => !rangesMeet a n u.1 u.2)
  ((0 :: used.map (fun u => u.1 + u.2)).filter ok).foldl (fun (b : Option Nat) a => match b with
    | none => some a
    | some m => some (min m a)) none

/-- The program's event base added to the events of a command that are in use (R133), EVENT of a binding MBOX among them
(R384). -/
def rebase (e : Engine) (base : Nat) (c : Cmd) : Cmd :=
  let add (off : Nat) (b : Bool) (c : Cmd) : Cmd := if b then splice c off (natLe 2 (fieldAt c off 2 + base)) else c
  add 34 (e == .fe && Cmd.opcode c == 0x14 && fieldAt c 32 1 == 1) (add 28 (Cmd.signalFlag c) (add 24 (Cmd.waitFlag c) c))

/-- An open PROGRAM_START of a program, launched or not. -/
def startOpen (s : State) (ctx prog : Nat) : Bool :=
  s.cmds.any (fun c => c.opcode == 8 && c.phase == .running && c.ctx == ctx && fieldAt c.desc 18 2 == prog)

/-- A program leaves: its queues are unbound, its schedule, fills, events and mailboxes go (R133). -/
def dropProgram (ctx prog : Nat) (p : Program) (s : State) : State :=
  let s := silenceSchedule ctx prog (unbindMailboxes ctx prog (unbindProgram p s))
  updCtx ctx (fun x => { x with programs := tabDel x.programs prog }) s

def bindImage (ctx prog base : Nat) (im : Image) (s : State) : State :=
  let p : Program :=
    { queues := im.lists.map (fun l => (l.engine, l.queue)), eventBase := base, eventCount := im.events, fills := im.fills
      isFrame := im.isFrame, schedule := none, startCmds := [], stopCmds := [], classes := [], rungs := [], replayRungs := []
      marks := [] }
  let s := updCtx ctx (fun x => { x with programs := tabSet x.programs prog p }) s
  im.lists.foldl (fun s l =>
    let cs := l.cmds.map (rebase l.engine base)
    setQueue l.engine l.queue
      { state := 1, ctx, program := prog, list := cs, template := cs, head := 0, cur := none, awaitTick := false, issued := 0, finished := 0
        worked := false, defect := none, rung := 0, stopReq := none, guardDone := false, repeated := none, late := false
        missed := false, reissue := [] } s) s

/-- The image cannot be bound now: a queue of it belongs to another program, the program it replaces runs, or a start of
it is open (R133). -/
def loadClash (s : State) (ctx prog : Nat) (x : Context) (im : Image) : Bool :=
  im.lists.any (fun l => match queueAt s l.engine l.queue with
    | some q => !(q.ctx == ctx && q.program == prog)
    | none => false)
  || (match tabGet x.programs prog with
    | some p => (progQueues s p).any (fun q => decide (2 ≤ q.state ∧ q.state ≤ 4))
    | none => false)
  || startOpen s ctx prog

/-- The image exceeds the context's queues of an engine, or its events (R133). -/
def loadOver (prog : Nat) (x : Context) (im : Image) : Bool :=
  let others := (x.programs.filter (fun p => decide (p.1 ≠ prog))).map (·.2)
  [Engine.pe, .ge, .se, .te, .fe].any (fun e =>
    decide (x.queueQuota < (others.flatMap (·.queues)).countP (fun k => k.1 == e) + im.lists.countP (fun l => l.engine == e)))
  || decide (x.eventQuota < others.foldl (fun t p => t + p.eventCount) 0 + im.events)

/-- The image bound in place of the program it replaces. -/
def replaceProgram (ctx prog base : Nat) (x : Context) (im : Image) (s : State) : State :=
  bindImage ctx prog base im (match tabGet x.programs prog with
    | some p => dropProgram ctx prog p s
    | none => s)

/-- PROGRAM_LOAD; its image has passed check 3 (namedDefect). -/
def execProgramLoad (src : CmdSrc) (s : State) : Answer :=
  runCmd 7 src (fun c s =>
    match ctxAt s c.ctx with
    | none => s
    | some x =>
      let a := fieldAt c.desc 24 8
      let n := fieldAt c.desc 32 4
      let prog := fieldAt c.desc 18 2
      if hostBad s a n then finishPoisoned c a s
      else
        match readImage s c.ctx (hostBytes s a n) with
        | .inl _ => s
        | .inr im =>
          if loadClash s c.ctx prog x im then finishNoRes c.order 0xA s
          else
            match freeEvents s (c.ctx, prog) im.events with
            | none => finishNoRes c.order 9 s
            | some base =>
              if loadOver prog x im then finishNoRes c.order 9 s
              else finishOk c.order base (replaceProgram c.ctx prog base x im s)) noAgain s

/-! ### PROGRAM_START, PROGRAM_STOP, RESUME of a program (R110, R113, R134, R135) -/

/-- The queues leave READY or HOLDING for WAITING: those of a frame program wait for the next tick at command 0. -/
def startQueues (p : Program) (s : State) : State :=
  setQueuesOf p (fun x =>
    if x.state = 1 ∨ x.state = 4 then
      { x with state := 2, head := if p.isFrame || x.state = 1 then 0 else x.head, awaitTick := p.isFrame, stopReq := none
               guardDone := false, repeated := none, late := false }
    else x) s

def clearEvents (base n : Nat) (s : State) : State :=
  { s with eng := { s.eng with events := s.eng.events.filter (fun e => !(decide (base ≤ e.1) && decide (e.1 < base + n))) } }

/-- The program's schedule is primed at the next tick (R296). -/
def primeProgram (ctx prog : Nat) (s : State) : State :=
  updProg ctx prog (fun p => { p with schedule := p.schedule.map (fun x => { x with prime := true }) }) s

/-- Every program of a context is primed at the next tick. -/
def primeContext (ctx : Nat) (s : State) : State :=
  updCtx ctx (fun c => { c with programs := c.programs.map (fun (p : Nat × Program) =>
    (p.1, { p.2 with schedule := p.2.schedule.map (fun x => { x with prime := true }) })) }) s

/-- The effect of a PROGRAM_START: from READY its events are zeroed and its exchanges counted afresh; the classes of its guard
descriptors are read anew (R200). -/
def goProgram (ctx prog order : Nat) (p : Program) (s : State) : State :=
  let fresh := (progQueues s p).all (fun x => x.state == 1)
  let s := if fresh then updCtx ctx (fun x => { x with exchangeRuns := [] }) s else s
  let s := if fresh && !p.isFrame then clearEvents p.eventBase p.eventCount s else s
  let s := if fresh then s else primeProgram ctx prog s
  startQueues p (updProg ctx prog (fun p => { p with
    startCmds := p.startCmds ++ [order], classes := p.classes.map (fun (c : Nat × Sticky) => (c.1, { c.2 with seen := false })) }) s)

/-- Some command of the program's lists has FRAME = 1. -/
def usesFrame (s : State) (p : Program) : Bool := (progQueues s p).any (fun x => x.list.any Cmd.frameFlag)

/-- A PROGRAM_START may take effect: its launch time has come, and no barrier holds a program that is not a frame
program (Table 13-3). -/
def mayStart (s : State) (c : FleosCmd) (p : Program) : Bool := launchCome s c && (p.isFrame || !barrierHeld s c.ctx)

def execProgramStart (src : CmdSrc) (s : State) : Answer :=
  runCmd 8 src (fun c s =>
    let prog := fieldAt c.desc 18 2
    match progAt s c.ctx prog with
    | none => finishBad c.order 18 5 s
    | some p =>
      if !inMode s .ready && (p.isFrame || usesFrame s p) then finishNoRes c.order 0xB s
      else if (progQueues s p).any (fun x => x.state != 1 && x.state != 4) then finishNoRes c.order 0xA s
      else if mayStart s c p then goProgram c.ctx prog c.order p s
      else updCmd c.order (fun x => { x with note := 1 }) s)
    (fun c s =>
      let prog := fieldAt c.desc 18 2
      match progAt s c.ctx prog with
      | none => s
      | some p =>
        if c.note = 1 ∧ mayStart s c p = true then
          goProgram c.ctx prog c.order p (updCmd c.order (fun x => { x with note := 0 }) s)
        else s) s

/-- The effect of a PROGRAM_STOP. -/
def haltProgram (ctx prog order mode : Nat) (p : Program) (s : State) : State :=
  let s := updProg ctx prog (fun p => { p with stopCmds := p.stopCmds ++ [(order, mode)] }) s
  settleProgram ctx prog (requestStop p s)

def execProgramStop (src : CmdSrc) (s : State) : Answer :=
  let go (c : FleosCmd) (s : State) : State :=
    let prog := fieldAt c.desc 18 2
    match progAt s c.ctx prog with
    | none => finishBad c.order 18 5 s
    | some p => haltProgram c.ctx prog c.order (fieldAt c.desc 17 1) p s
  runCmd 9 src (fun c s =>
    if (progAt s c.ctx (fieldAt c.desc 18 2)).isNone then finishBad c.order 18 5 s
    else if launchCome s c then go c s else updCmd c.order (fun x => { x with note := 1 }) s)
    (fun c s => if c.note = 1 ∧ launchCome s c = true then go c (updCmd c.order (fun x => { x with note := 0 }) s) else s) s

/-- RESUME: scope 0x01 returns held queues to WAITING; scope 0x00 ends a coolant-flow stop: ungated, out of self-refresh,
frame programs at command 0 from the next tick (R135, R444). FLOW_FAIL_N may have risen since it fell, which no row tells: its
level is then free (log entry 18). -/
def execResume (src : CmdSrc) (s : State) : Answer :=
  runCmd 0x1B src (fun c s =>
    if fieldAt c.desc 17 1 = 0 then
      let (low, s) := if s.boot.flowLow then takeBool s else (false, s)
      if !s.pwr.stopped || low then finishNoRes c.order 0xB s
      else
        let s : State := { s with
          pwr := { s.pwr with stopped := false, clock := 0 }
          mem := { s.mem with stackStates := s.mem.stackStates.map (fun k => { k with selfRefresh := false }) } }
        let ctxs := s.contexts.map (·.1)
        finishOk c.order 0 (noteReasons (ctxs.foldl (fun s x => primeContext x s) s))
    else
      match progAt s c.ctx (fieldAt c.desc 18 2) with
      | none => finishBad c.order 18 5 s
      | some p =>
        let s := setQueuesOf p (fun x =>
          if x.state = 4 then { x with state := 2, head := if p.isFrame then 0 else x.head, awaitTick := p.isFrame } else x) s
        finishOk c.order 0 (primeProgram c.ctx (fieldAt c.desc 18 2) s)) noAgain s

/-! ### Streams (R138, R139, R210 to R213) -/

/-- The F32 1.0. -/
def f32One : F32 := 0x3F800000

/-- The parameters of a block without defect, defaults applied; inv_t is the reciprocal rounded once. -/
def readParams (b seqs : List Byte) : StreamParams :=
  let h (off len : Nat) : Nat := fieldAt b off len
  { sample := h 2 1, draftSrc := h 3 1, topK := if h 4 2 = 0 then 1024 else h 4 2
    invT := if h 8 4 = 0 then f32One else divF32 f32One (BitVec.ofNat 32 (h 8 4))
    topP := if h 12 4 = 0 then f32One else BitVec.ofNat 32 (h 12 4)
    maxLen := h 16 4, draftMax := h 20 1, deadline := h 24 8, draftAddr := h 40 8
    stopIds := (List.range (h 6 1)).map (fun i => h (64 + 4 * i) 4)
    stopSeqs := (List.range (h 7 1)).map (fun i =>
      (List.range (fieldAt seqs (72 * i) 1)).map (fun j => fieldAt seqs (72 * i + 8 + 4 * j) 4)) }

/-- A stream as STREAM_OPEN makes it (R138, Table 5-7). -/
def newStream (c : FleosCmd) (number : Nat) (params : StreamParams) : Stream :=
  let f (off len : Nat) : Nat := fieldAt c.desc off len
  { number, ctx := c.ctx, ringAddr := f 24 8, log2 := f 17 1, consumerAddr := f 32 8, consumer := 0, writeIndex := 0
    seed := f 40 8, params, next := 0, fed := none, ended := false, emitted := 0, recent := [], drafts := []
    hostDraft := none, lastStep := 0, stepped := false, stalled := false, prompt := none, promptToken := none, closing := none
    deadlineDue := false, retake := false, kvLost := false, kvPoison := false, kvLen := 0, dirSlot := none, handFrom := none
    masked := false }

/-- STREAM_OPEN takes the lowest free slot, whose use count rises (R210); its block has passed check 3 (namedDefect). -/
def execStreamOpen (src : CmdSrc) (s : State) : Answer :=
  runCmd 0xA src (fun c s =>
    let f (off len : Nat) : Nat := fieldAt c.desc off len
    let pa := f 48 8
    let quota := ((ctxAt s c.ctx).map (·.streamQuota)).getD 0
    let b := hostBytes s pa 256
    let sa := fieldAt b 32 8
    let n := min 8 (fieldAt b 7 1)
    if quota ≤ (s.streams.filter (fun x => x.2.ctx == c.ctx)).length ∨ 65536 ≤ s.streams.length then finishNoRes c.order 9 s
    else if hostBad s pa 256 || (decide (n ≠ 0) && hostBad s sa (72 * n)) then finishPoisoned c pa s
    else
      let seqs := hostBytes s sa (72 * n)
      match lowestFree (s.streams.map (·.1)) 65536 with
      | none => finishNoRes c.order 9 s
      | some slot =>
        let use := (tabNat s.slotUses slot + 1) % 65536
        let x := newStream c (use * 65536 + slot) (readParams b seqs)
        finishOk c.order x.number
          { s with streams := tabSet s.streams slot x, slotUses := tabPut s.slotUses slot use }) noAgain s

/-- A stream that a command of a context names is open there. -/
def openStream (s : State) (ctx number : Nat) : Option Stream :=
  match streamNo s number with
  | some x => if x.ctx = ctx then some x else none
  | none => none

/-- An earlier PROMPT_SUBMIT of a stream is not complete. -/
def promptsOpen (s : State) (number order : Nat) : Bool :=
  s.cmds.any (fun c => c.opcode == 0xC && c.isOpen && decide (c.order < order) && fieldAt c.desc 20 4 == number)

/-- STREAM_CLOSE and STREAM_ABORT: at a tick in READY, at once elsewhere; a close waits for earlier prompts; on a stream that an
earlier one has ended meanwhile, OK with no effect (R123, R139). -/
def closeCmd (op stop : Nat) (src : CmdSrc) (s : State) : Answer :=
  let number (c : FleosCmd) : Nat := fieldAt c.desc 20 4
  let ready (c : FleosCmd) (s : State) : Bool := !inMode s .ready && (op == 0xE || !promptsOpen s (number c) c.order)
  runCmd op src (fun c s =>
    match openStream s c.ctx (number c) with
    | none => if c.note = 0 then finishBad c.order 20 5 s else finishOk c.order (c.note - 1) s
    | some x =>
      if ready c s && x.closing.isNone then closeStream (x.number % 65536) stop s
      else
        let s := updStream (x.number % 65536) (fun x => { x with closing := x.closing.orElse (fun _ => some (c.order, stop)) }) s
        { s with due := s.due ++ [.close x.number c.order stop] })
    (fun c s => if ready c s then closeStream (number c % 65536) stop
        { s with due := s.due.filter (fun d => d != .close (number c) c.order stop) } else s) s

def execStreamClose (src : CmdSrc) (s : State) : Answer := closeCmd 0xB 6 src s

def execStreamAbort (src : CmdSrc) (s : State) : Answer := closeCmd 0xE 5 src s

/-- Positions that earlier prompts of a stream will still take, their sampled tokens with them. -/
def promptAhead (s : State) (number order : Nat) : Nat :=
  s.cmds.foldl (fun t y =>
    if y.opcode = 0xC ∧ y.phase = .running ∧ y.order < order ∧ fieldAt y.desc 20 4 = number then
      t + (fieldAt y.desc 32 4 - y.progress) + 1 else t) 0

/-- PROMPT_SUBMIT begins: it is queued behind the stream's earlier prompts, and its tokens are processed at the ticks that
follow (R140, R214). -/
def execPromptSubmit (src : CmdSrc) (s : State) : Answer :=
  runCmd 0xC src (fun c s =>
    let number := fieldAt c.desc 20 4
    let n := fieldAt c.desc 32 4
    match openStream s c.ctx number with
    | none => finishBad c.order 20 5 s
    | some x =>
      if x.closing.isSome then updCmd c.order (fun y => { y with phase := .waiting }) s
      else if 4194304 < x.next + promptAhead s number c.order + n then finishNoRes c.order 3 s
      else if hostBad s (fieldAt c.desc 24 8) (4 * n) then finishPoisoned c (fieldAt c.desc 24 8) s
      else updStream (number % 65536) (fun x => { x with prompt := x.prompt.orElse (fun _ => some c.order) }) s) noAgain s

/-! ### Batches (R141) -/

/-- A batch takes effect: streams listed leave their other batches, whose slots are masked. -/
def applyBatch (c : FleosCmd) (list : List Nat) (frame : Nat) (s : State) : State :=
  let b := fieldAt c.desc 18 2
  let v := fieldAt c.desc 17 1
  let fn := match c.src with | .ring f _ _ => f | .mgt _ => 0
  let s := updCtx c.ctx (fun x =>
    let rest := (tabDel x.batches b).map (fun (e : Nat × Batch) => (e.1, { e.2 with
      gone := e.2.streams.zipIdx.foldl (fun g n => if list.contains n.1 && !g.contains n.2 then n.2 :: g else g) e.2.gone }))
    let y : Batch := { streams := list, vector := v % 64, irqEn := bitOf v 7, fn, gone := [] }
    { x with batches := if list.isEmpty then rest else tabSet rest b y }) s
  finishOk c.order frame s

/-- The streams a BATCH_SET lists in host memory. -/
def batchList (s : State) (c : FleosCmd) : List Nat :=
  (List.range (fieldAt c.desc 20 2)).map (fun i => leNat (hostBytes s (fieldAt c.desc 24 8 + 4 * i) 4))

/-- The frame a batch takes effect in: its launch frame, and never before the second after acceptance (R141). -/
def batchFrame (c : FleosCmd) : Nat :=
  match (if launchValid (fieldAt c.desc 8 8) then launchTarget (fieldAt c.desc 8 8) c.frame else none) with
  | some t => max t (c.frame + 2)
  | none => c.frame + 2

def execBatchSet (src : CmdSrc) (s : State) : Answer :=
  runCmd 0xD src (fun c s =>
    let n := fieldAt c.desc 20 2
    let a := fieldAt c.desc 24 8
    let list := batchList s c
    if hostBad s a (4 * n) then finishPoisoned c a s
    else if !decide list.Nodup || list.any (fun x => (openStream s c.ctx x).isNone) then finishBad c.order 24 5 s
    else
      { s with due := s.due ++ [.batch c.order (batchFrame c) list] }) noAgain s

/-! ### Policies (R137, R146, R279) -/

def execKvSpillPolicy (src : CmdSrc) (s : State) : Answer :=
  runCmd 0xF src (fun c s =>
    let f (off len : Nat) : Nat := fieldAt c.desc off len
    finishOk c.order 0 (updCtx c.ctx (fun x => { x with
      spillMode := f 17 1, spillFormat := f 18 1, lookahead := f 19 1, highPct := f 20 1, t2Base := f 24 8
      t2Size := f 32 8 }) s)) noAgain s

def setPolicy (ctx layer cap pol order : Nat) (s : State) : State :=
  finishOk order 0 (updCtx ctx (fun x => { x with residency := tabSet x.residency layer (cap, pol) }) s)

def execExpertResidency (src : CmdSrc) (s : State) : Answer :=
  runCmd 0x10 src (fun c s =>
    let f (off len : Nat) : Nat := fieldAt c.desc off len
    let layer := f 18 2
    let first := f 20 2
    let n := f 22 2
    if f 17 1 = 3 then
      if inMode s .ready then { s with due := s.due ++ [.policy c.ctx layer (f 24 2) (f 26 1) c.order] }
      else setPolicy c.ctx layer (f 24 2) (f 26 1) c.order s
    else
      match (ctxAt s c.ctx).bind (fun x => tabGet x.hotPools layer) with
      | none => finishNoRes c.order 0xB s
      | some p =>
        let named := (List.range n).map (first + ·)
        let pins := if f 17 1 = 1 then p.pins ++ named.filter (fun e => !p.pins.contains e)
          else p.pins.filter (fun e => !named.contains e)
        if f 17 1 = 1 ∧ p.hotSlots - 1 < pins.length then finishNoRes c.order 9 s
        else if p.lens.length < first + n then finishNoRes c.order 3 s
        else
          let s := updCtx c.ctx (fun x => { x with hotPools := tabUpd x.hotPools layer (fun p => { p with pins }) }) s
          if f 17 1 = 2 ∨ pinsResident p first n = true then finishOk c.order 0 s else s) noAgain s

/-- A POWER_SET's values taken and in force: RESULT is the effective cap. -/
def powerNow (c : FleosCmd) (s : State) : State :=
  let s := applyCaps (storePower c.src (fieldAt c.desc 17 1) (fieldAt c.desc 20 4) (fieldAt c.desc 24 4) s)
  finishOk c.order s.pwr.cap s

def execPowerSet (src : CmdSrc) (s : State) : Answer :=
  runCmd 0x19 src (fun c s =>
    if inMode s .ready then
      let s := if launchCome s c then
          storePower c.src (fieldAt c.desc 17 1) (fieldAt c.desc 20 4) (fieldAt c.desc 24 4) s else s
      { s with due := s.due ++ [.power c.order] }
    else powerNow c s) noAgain s

/-! ### Effects due at a tick (R406 step 1, R471) -/

/-- One effect taken, if it is due now: what stays due is answered. `k` is the tick, none where the module leaves the herd
and every effect takes place at that moment. -/
def takeDue (k : Option Nat) (d : Due) (s : State) : Option Due × State :=
  match d with
  | .regionIn x r cmd => (none, regionLive x r cmd s)
  | .regionOut x r cmd => (none, regionGone x r cmd s)
  | .policy x l cap pol cmd => (none, setPolicy x l cap pol cmd s)
  | .power cmd =>
    match cmdNo s cmd with
    | none => (none, s)
    | some c => if k.isSome && !launchCome s c then (some d, s) else (none, powerNow c s)
  | .batch cmd frame list =>
    match cmdNo s cmd with
    | none => (none, s)
    | some c =>
      match k with
      | some t => if t < frame then (some d, s) else (none, applyBatch c list t s)
      | none => (none, applyBatch c list frame s)
  | .close number cmd stop =>
    match streamNo s number, cmdNo s cmd with
    | some _, some c =>
      if !c.isOpen then (none, s)
      else if k.isSome && ((stop == 6 && promptsOpen s number cmd) || !launchCome s c
          || s.cmds.any (fun y => y.isOpen && decide (y.order < cmd) && (y.opcode == 0xB || y.opcode == 0xE)
              && y.phase == .running && fieldAt y.desc 20 4 == number)) then (some d, s)
      else (none, closeStream (number % 65536) stop s)
    | _, _ => (none, s)

/-- Every effect due, in order. -/
def takeDues (k : Option Nat) (s : State) : State :=
  s.due.foldl (fun s d =>
    let (left, s) := takeDue k d s
    match left with
    | some d => { s with due := s.due ++ [d] }
    | none => s) { s with due := [] }

/-! ### Fences (R136, R391, R392) -/

/-- Epochs of a context with writes not acknowledged. -/
def openEpochs (x : Context) : List Nat := (x.epochs.map (fun e => e.1.1)).eraseDups

/-- An epoch at or before E, on the circle of 2¹⁶. -/
def epochUpTo (e k : Nat) : Bool := decide ((e + 65536 - k % 65536) % 65536 < 32768)

/-- Writes that a fence covers. -/
def fenceCovers (e dev : Nat) (k : Nat × Nat) : Bool := epochUpTo e k.1 && (dev == 0xFFFF || dev == k.2)

/-- FENCE: SCOPE 0x02 raises the epoch when it starts; its row again completes it once its condition holds. -/
def execFence (src : CmdSrc) (s : State) : Answer :=
  let earlier (c : FleosCmd) (s : State) : Bool := s.cmds.any (fun x => x.isOpen && decide (x.order < c.order)
    && (if fieldAt c.desc 17 1 = 0 then (match x.src, c.src with
        | .ring f r _, .ring g q _ => f == g && r == q
        | _, _ => false)
      else x.named == c.named))
  let settle (c : FleosCmd) (s : State) : State :=
    if earlier c s then s
    else if fieldAt c.desc 17 1 ≠ 2 then finishOk c.order 0 s
    else
      match ctxAt s c.ctx with
      | none => s
      | some x =>
        let dev := fieldAt c.desc 18 2
        let e := c.note - 1
        if c.note = 0 ∨ x.epochs.any (fun w => fenceCovers e dev w.1) = true then s
        else
          match x.epochFails.find? (fenceCovers e dev) with
          | some w =>
            finish c.order 7 w.2 0 (updCtx c.ctx (fun x => { x with
              epochFails := x.epochFails.filter (fun w => !fenceCovers e dev w) }) s)
          | none => finishOk c.order 0 s
  let go (c : FleosCmd) (s : State) : State :=
    match ctxAt s c.ctx with
    | none => s
    | some x =>
      if fieldAt c.desc 17 1 = 2 ∧ c.note = 0 ∧ (openEpochs x).length < 8 then
        let s := updCmd c.order (fun y => { y with note := x.fenceEpoch + 1 }) s
        settle { c with note := x.fenceEpoch + 1 }
          (updCtx c.ctx (fun x => { x with fenceEpoch := (x.fenceEpoch + 1) % 65536 }) s)
      else settle c s
  runCmd 0x1A src go go s

end Sys2Proof.Machine
end

