-- ==== Sys2Proof/Machine/Rings.lean ====
section
/-! DEFINITION. Host rings: doorbells, openings and closings, intake, completion records, the reset walk, interrupts and
function-level resets (file 03; R468, R469, R494, R498, R501). -/
namespace Sys2Proof.Machine

/-- Functions that exist: the PF, and the VFs enabled (R498). -/
def fnUp (s : State) (fn : Nat) : Bool := fn == 0 || (s.boot.vfEnable && decide (1 ≤ fn ∧ fn ≤ s.boot.numVfs))

/-- The link stream is keyed and Insecure: everything the port would send waits (R501). -/
def portInsecure (s : State) : Bool := s.mgt.ide.any (fun k => k.link && !k.secure)

/-- The host port works: D8, which holds the ring engine and host DMA, is released, power is there and the link carries
traffic. -/
def portUp (s : State) : Bool := !inMode s .off && decide (9 ≤ s.boot.released) && !portInsecure s

/-! ### Directory entries (R64, R72) -/

/-- Directory entry `n` of a function. -/
def dirEntry (s : State) (fn n : Nat) : List Byte := hostBytes s ((fnOf s fn).dirBase + 64 * n) 64

/-- Doorbell record `n` of a function. -/
def doorbell (s : State) (fn n : Nat) : Nat := leNat (hostBytes s ((fnOf s fn).dbBase + 8 * n) 8)

/-- INDEX, OPEN and the reserved bits of a doorbell record (R66). -/
def bellIndex (v : Nat) : Nat := v % 2 ^ 32
def bellOpen (v : Nat) : Bool := bitOf v 63
def bellClean (v : Nat) : Bool := bitsOf v 62 32 == 0

/-- The entry's own reason to refuse the opening, 0 for none (R72; Table 3-11). Of several, the lowest code: the manual gives
no order (DESIGN CHOICE, log entry 27). -/
def entryReason (e : List Byte) : Nat :=
  let t := fieldAt e 0 1
  let status := fieldAt e 16 8
  if t < 1 ∨ 3 < t then 1
  else if fieldAt e 1 1 < 6 ∨ 16 < fieldAt e 1 1 then 2
  else if fieldAt e 8 8 % 4096 ≠ 0 ∨ (t ≠ 2 ∧ (status % 64 ≠ 0 ∨ status = 0)) then 3
  else if bitOf (fieldAt e 4 1) 6 = true ∨ fieldAt e 5 3 ≠ 0 ∨ leNat (slice e 28 36) ≠ 0
      ∨ (t = 1 ∧ (fieldAt e 4 1 ≠ 0 ∨ fieldAt e 24 4 ≠ 0)) ∨ (t = 2 ∧ status ≠ 0) ∨ (t = 3 ∧ fieldAt e 2 2 ≠ 0) then 4
  else 0

/-- A ring as its entry describes it, at an index. -/
def entryRing (e : List Byte) (phase index : Nat) : Ring :=
  { type := fieldAt e 0 1, log2 := fieldAt e 1 1, pair := fieldAt e 2 2, vector := fieldAt e 4 1 % 64
    irqEn := bitOf (fieldAt e 4 1) 7, base := fieldAt e 8 8, status := fieldAt e 16 8, modCount := fieldAt e 24 2
    modUs := fieldAt e 26 2, phase, accepted := index, completed := index, resets := 0, hostIndex := index
    unsignalled := 0, reopen := true }

def setRing (fn n : Nat) (r : Ring) (s : State) : State := updFn fn (fun f => { f with rings := tabSet f.rings n r }) s

def ringAt (s : State) (fn n : Nat) : Option Ring := tabGet (fnOf s fn).rings n

def dropRing (fn n : Nat) (s : State) : State := updFn fn (fun f => { f with rings := tabDel f.rings n }) s

/-- An opening refused: the ring stays closed until OPEN has been read as 0 (R72). -/
def refuseRing (fn n reason : Nat) (s : State) : State :=
  postEvent fn 1 reason n [] (updFn fn (fun f => { f with refused := if f.refused.contains n then f.refused else n :: f.refused }) s)

/-- A SUBMIT ring closes: STATE 0x00; a COMPLETE ring that was only kept for it closes with it (R75). Records of a COMPLETE or
EVENT ring that are unsignalled as it closes are not signalled later (DESIGN CHOICE, log entry 68). -/
def closeSubmit (fn n : Nat) (s : State) : State :=
  match ringAt s fn n with
  | none => s
  | some r =>
    let s := dropRing fn n (publish fn n (updRing fn n (fun x => { x with phase := 0 }) s))
    match ringAt s fn r.pair with
    | some c => if c.type = 2 ∧ c.phase = 2 then dropRing fn r.pair s else s
    | none => s

/-- A draining ring with no command left closes. -/
def settleRing (fn n : Nat) (s : State) : State :=
  match ringAt s fn n with
  | some r => if r.type = 1 ∧ r.phase = 2 ∧ r.completed = r.accepted then closeSubmit fn n s else s
  | none => s

/-! ### Openings (R72, R73) -/

/-- STATE of the status record an entry names shows a ring in use. -/
def statusLive (s : State) (e : List Byte) : Bool :=
  let st := leNat (hostBytes s (fieldAt e 16 8 + 8) 1)
  st == 1 || st == 2 || st == 3

/-- The index at which an event ring resumes (R90). -/
def eventResume (s : State) (r : Ring) : (fuel i : Nat) → Nat
  | 0, i => i
  | n + 1, i =>
    let b := hostBytes s (r.base + i % r.size * 32) 32
    if fieldAt b 2 1 % 2 = phaseBit r.log2 i ∧ fieldAt b 4 4 = i then eventResume s r n ((i + 1) % 2 ^ 32) else i

/-- The first read with OPEN = 1 of an EVENT ring in use before the reset: it resumes (R74). -/
def resumeEvent (fn n : Nat) (e : List Byte) (s : State) : State :=
  let r := entryRing e 1 (bellIndex (doorbell s fn n))
  let i := eventResume s r r.size (leNat (hostBytes s (fieldAt e 16 8) 4))
  publish fn n (setRing fn n { r with accepted := i, resets := leNat (hostBytes s (fieldAt e 16 8 + 12) 4) } s)

/-- The ring has not been read with OPEN = 1 since the module reset: what follows may be a resumption (R74). -/
def firstRead (s : State) (fn n : Nat) : Bool := !(fnOf s fn).seen.contains n

def noteSeen (fn n : Nat) (s : State) : State :=
  updFn fn (fun f => { f with seen := if f.seen.contains n then f.seen else n :: f.seen }) s

/-- One opening, the entry read once. A COMPLETE ring whose SUBMIT ring was in use before the reset waits for that ring's
walk, which resumes it (R74, R90). -/
def openRing (fn n : Nat) (s : State) : State :=
  let e := dirEntry s fn n
  let i := bellIndex (doorbell s fn n)
  let why := entryReason e
  let t := fieldAt e 0 1
  let first := firstRead s fn n
  if hostUnread s ((fnOf s fn).dirBase + 64 * n) 64 then s
  else
    let s := noteSeen fn n s
    if why ≠ 0 then refuseRing fn n why s
    else if t = 1 then
      match ringAt s fn (fieldAt e 2 2) with
      | none => refuseRing fn n 5 s
      | some c =>
        if c.type ≠ 2 ∨ c.phase ≠ 1 ∨ c.log2 ≠ fieldAt e 1 1 ∨ c.pair ≠ n then refuseRing fn n 5 s
        else if c.accepted ≠ i then refuseRing fn n 7 s
        else publish fn n (setRing fn n (entryRing e 1 i) s)
    else if t = 3 then
      if (eventRing (fnOf s fn)).isSome then refuseRing fn n 6 s
      else if first && statusLive s e then resumeEvent fn n e s
      else publish fn n (setRing fn n (entryRing e 1 i) s)
    else
      let k := dirEntry s fn (fieldAt e 2 2)
      if first && fieldAt k 0 1 == 1 && entryReason k == 0 && statusLive s k then
        updFn fn (fun f => { f with seen := f.seen.filter (fun x => decide (x ≠ n)) }) s
      else setRing fn n (entryRing e 1 i) s

/-! ### Doorbell records (R66, R69, R71, R75) -/

/-- A record ignored: counted and posted once for each distinct value. -/
def ignoreBell (fn n v : Nat) (s : State) : State :=
  if tabGet (fnOf s fn).ignored n = some v then s
  else
    postEvent fn 2 0 n (natLe 4 v) (updFn fn (fun f => { f with
      ignored := tabSet f.ignored n v, ignoredCount := f.ignoredCount + 1 }) s)

/-- The index is one that the ring can take: a producer index at most a ring ahead, a consumer index not behind its last
value and not ahead of the records written. -/
def bellFits (r : Ring) (i : Nat) : Bool :=
  if r.type = 1 then decide (diff32 i r.accepted ≤ r.size)
  else decide (diff32 i r.hostIndex ≤ diff32 (if r.type = 2 then r.completed else r.accepted) r.hostIndex)

/-- OPEN read as 0 on an open ring. The events that an EVENT ring has lost are its own and go with it (R86). -/
def clearOpen (fn n : Nat) (r : Ring) (s : State) : State :=
  if r.type = 1 then
    if r.completed = r.accepted then closeSubmit fn n s
    else publish fn n (updRing fn n (fun x => { x with phase := 2 }) s)
  else if r.type = 3 then
    updFn fn (fun f => { f with eventsLost := 0 }) (dropRing fn n (publish fn n (updRing fn n (fun x => { x with phase := 0 }) s)))
  else
    match ringAt s fn r.pair with
    | some k => if k.type = 1 ∧ k.pair = n then updRing fn n (fun x => { x with phase := 2 }) s else dropRing fn n s
    | none => dropRing fn n s

/-- OPEN read as 0 ends a refusal (R72). -/
def clearRefusal (fn n v : Nat) (s : State) : State :=
  updFn fn (fun f => { f with
    ignored := tabDel f.ignored n, refused := if bellOpen v then f.refused else f.refused.filter (fun k => decide (k ≠ n)) }) s

/-- A ring in recovery shows OPEN after its walk, unless its resumption was refused (R74, R90). -/
def reopens (s : State) (fn n v : Nat) (r : Ring) : Bool :=
  bellOpen v && !(fnOf s fn).refused.contains n && ((ringAt s fn r.pair).map (fun c => c.phase == 1)).getD true

/-- One doorbell record taken or ignored; openings come later in the same read. OPEN = 1 on a draining ring is held until it
has closed (R75). -/
def takeBell (fn n : Nat) (s : State) : State :=
  let v := doorbell s fn n
  let f := fnOf s fn
  if f.walkFailed.contains n ∨ hostUnread s (f.dbBase + 8 * n) 8 then s
  else if !bellClean v then ignoreBell fn n v s
  else
    match tabGet f.rings n with
    | none => clearRefusal fn n v s
    | some r =>
      if r.phase = 2 ∧ bellOpen v = true then s
      else if !bellFits r (bellIndex v) then ignoreBell fn n v s
      else
        let ro := reopens s fn n v r
        let s := updRing fn n (fun x => { x with hostIndex := bellIndex v, reopen := ro }) (clearRefusal fn n v s)
        let s := if r.type = 3 then postLost fn s else s
        if r.phase = 1 ∧ bellOpen v = false then clearOpen fn n { r with hostIndex := bellIndex v } s else s

/-- Rings that this read opens: a record not ignored, OPEN = 1, closed, not refused. -/
def opens (s : State) (fn n : Nat) : Bool :=
  let v := doorbell s fn n
  let f := fnOf s fn
  bellClean v && bellOpen v && (tabGet f.rings n).isNone && !f.refused.contains n && !f.walkFailed.contains n
  && !hostUnread s (f.dbBase + 8 * n) 8

/-! ### The first read after a module reset (R74, R90) -/

/-- A submission ring in use before the reset is set up for its walk, with its completion ring. -/
def resumeSubmit (fn n : Nat) (s : State) : State :=
  let e := dirEntry s fn n
  if fieldAt e 0 1 ≠ 1 ∨ entryReason e ≠ 0 ∨ statusLive s e = false then s
  else
    let p := fieldAt e 2 2
    let c := dirEntry s fn p
    let failed := (fnOf s fn).walkFailed.contains n
    if fieldAt c 0 1 ≠ 2 ∨ entryReason c ≠ 0 ∨ fieldAt c 1 1 ≠ fieldAt e 1 1 ∨ fieldAt c 2 2 ≠ n then
      if failed then s
      else postEvent fn 1 5 n [] (updFn fn (fun f => { f with walkFailed := n :: f.walkFailed }) s)
    else
      let st := hostBytes s (fieldAt e 16 8) 64
      let v := doorbell s fn n
      let w := doorbell s fn p
      let both := bellOpen v && bellClean v
      let copen := bellOpen w && bellClean w
      let r : Ring := { entryRing e 3 (fieldAt st 0 4) with
        completed := fieldAt st 4 4, resets := fieldAt st 12 4, reopen := both && copen }
      let k : Ring := { entryRing c (if copen then 1 else 2) (fieldAt st 4 4) with hostIndex := bellIndex w, reopen := copen }
      let s := updFn fn (fun f => { f with walking := true, walkFailed := f.walkFailed.filter (fun x => decide (x ≠ n)) }) s
      let s := if copen then noteSeen fn p s else s
      let s := publish fn n (setRing fn p k (setRing fn n r (if both then noteSeen fn n s else s)))
      if both && !copen then refuseRing fn n 5 s else s

/-- The recovery that comes with a function's first read, and the repeated check of rings whose pair failed. -/
def recoverFn (fn : Nat) (s : State) : State :=
  let f := fnOf s fn
  if f.walkDue then
    (List.range 512).foldl (fun s n => resumeSubmit fn n s) (updFn fn (fun f => { f with walkDue := false }) s)
  else f.walkFailed.mergeSort.foldl (fun s n => resumeSubmit fn n s) s

/-- A doorbell read of a function: the first after a reset recovers its rings; then every record; COMPLETE and EVENT
openings come before SUBMIT openings (R67, R72), each in ascending ring number once every record has been taken (DESIGN
CHOICE, log entry 27). -/
def readDoorbells (fn : Nat) (s : State) : State :=
  if !(fnOf s fn).enable then s
  else
    let s := recoverFn fn s
    let s := (List.range 512).foldl (fun s n => takeBell fn n s) s
    let ns := (List.range 512).filter (opens s fn)
    let sub (n : Nat) : Bool := fieldAt (dirEntry s fn n) 0 1 == 1
    (ns.filter sub).foldl (fun s n => openRing fn n s) ((ns.filter (fun n => !sub n)).foldl (fun s n => openRing fn n s) s)

/-- Every enabled function, the PF first. -/
def readAllDoorbells (s : State) : State := (List.range 17).foldl (fun s fn => readDoorbells fn s) s

def execDoorbellRead (fn : Nat) (stores : List HostStore) (s : State) : Answer :=
  .next (let s := hostStores stores s
    if portUp s then readDoorbells fn s else s)

/-- Reads follow ticks in READY, and in HERD once a SYNC has come (R469). -/
def readsOnTicks (s : State) : Bool := inMode s .ready || (inMode s .herd && s.herd.heard)

def execDoorbellPoll (stores : List HostStore) (s : State) : Answer :=
  .next (let s := hostStores stores s
    if portUp s && !readsOnTicks s then readAllDoorbells s else s)

/-- RING_NUDGE: a write that covers offset 0 of the nudge page, of any length (R68, R525). -/
def execRingNudge (fn offset size : Nat) (stores : List HostStore) (s : State) : Answer :=
  .next (let s := hostStores stores s
    if offset = 0 ∧ size ≠ 0 ∧ fnUp s fn = true ∧ portUp s = true then readDoorbells fn s else s)

/-! ### Intake (R71, R78, R79) -/

/-- Descriptors that a ring may take now. -/
def intakeRoom (s : State) (fn : Nat) (r : Ring) : Nat :=
  match ringAt s fn r.pair with
  | none => 0
  | some c =>
    let used := diff32 r.accepted c.hostIndex
    let open_ := (s.cmds.filter (fun x => match x.src with | .ring _ _ _ => true | .mgt _ => false)).length
    min (diff32 r.hostIndex r.accepted) (min (r.size - used) (16384 - open_))

/-- Descriptors accepted one by one, up to one that the host cannot give yet. -/
def acceptMany (fn n : Nat) : (k : Nat) → State → State
  | 0, s => s
  | k + 1, s =>
    match ringAt s fn n with
    | none => s
    | some r =>
      let a := r.base + r.accepted % r.size * 64
      if hostUnread s a 64 then s
      else
        let s := acceptDesc (.ring fn n r.accepted) (hostBytes s a 64) 0 s
        acceptMany fn n k (updRing fn n (fun x => { x with accepted := (x.accepted + 1) % 2 ^ 32 }) s)

/-- The next ring of the intake order with something to take. -/
def intakeNext (s : State) : Option (Nat × Nat × Nat) :=
  (List.range 17).findSome? (fun fn =>
    if (fnOf s fn).walking then none
    else (fnOf s fn).rings.findSome? (fun e =>
      if e.2.type = 1 ∧ e.2.phase = 1 ∧ intakeRoom s fn e.2 ≠ 0
          ∧ hostUnread s (e.2.base + e.2.accepted % e.2.size * 64) 64 = false then
        some (fn, e.1, intakeRoom s fn e.2) else none))

/-- DESCRIPTOR_INTAKE: the next ring's descriptors, as far as R71 allows, and ACCEPTED published. -/
def execDescriptorIntake (stores : List HostStore) (s : State) : Answer :=
  .next (let s := hostStores stores s
    if !portUp s then s
    else
      match intakeNext s with
      | none => s
      | some (fn, n, k) => publish fn n (acceptMany fn n k s))

/-! ### Completion records (R80, R81) -/

/-- One record written to a completion ring (R70, R80). -/
def writeCompletion (fn cn index tag status opcode detail result time : Nat) (s : State) : State :=
  match ringAt s fn cn with
  | none => s
  | some c =>
    let s := hostWrite (c.base + index % c.size * 32)
      (completionBytes index tag status (phaseBit c.log2 index) opcode detail result time) s
    recordSignal fn cn (updRing fn cn (fun x => { x with completed := (index + 1) % 2 ^ 32 }) s)

/-- The ring's oldest command without a record, if it has completed: its record, then COMPLETED. -/
def putRecord (fn n : Nat) (s : State) : State :=
  match ringAt s fn n with
  | none => s
  | some r =>
    match cmdOf s (.ring fn n r.completed) with
    | none => s
    | some c =>
      match c.phase with
      | .done st detail result =>
        if r.type ≠ 1 then s
        else
          let s := writeCompletion fn r.pair r.completed (fieldAt c.desc 4 4) st c.opcode detail result c.time s
          let s := { s with cmds := s.cmds.filter (fun x => decide (x.order ≠ c.order)) }
          publish fn n (updRing fn n (fun x => { x with completed := (x.completed + 1) % 2 ^ 32 }) s)
      | _ => s

/-- A draining ring closes with its last record. -/
def nextRecord (fn n : Nat) (s : State) : State := settleRing fn n (putRecord fn n s)

def execCompletionRecord (fn ring : Nat) (s : State) : Answer :=
  .next (if portUp s then nextRecord fn ring s else s)

/-! ### The reset walk (R90 to R92) -/

/-- The scan: the first index whose slot does not hold its record. -/
def walkScan (s : State) (c : Ring) (last : Nat) : (fuel i : Nat) → Nat
  | 0, i => i
  | n + 1, i =>
    let b := hostBytes s (c.base + i % c.size * 32) 32
    if i ≠ last ∧ fieldAt b 9 1 % 2 = phaseBit c.log2 i ∧ fieldAt b 0 4 = i then
      walkScan s c last n ((i + 1) % 2 ^ 32) else i

/-- Records ABORTED_RESET for the rest. -/
def walkWrite (fn : Nat) (r : Ring) : (fuel i : Nat) → State → State
  | 0, _, s => s
  | n + 1, i, s =>
    if i = r.accepted then s
    else
      let d := hostBytes s (r.base + i % r.size * 64) 8
      walkWrite fn r n ((i + 1) % 2 ^ 32)
        (writeCompletion fn r.pair i (fieldAt d 4 4) 1 (fieldAt d 0 1) ((r.resets + 1) % 2 ^ 32) 0 (stampOf s) s)

/-- One ring walked: STATE shows what its doorbell says. -/
def walkRing (fn n : Nat) (s : State) : State :=
  match ringAt s fn n with
  | none => s
  | some r =>
    match ringAt s fn r.pair with
    | none => s
    | some c =>
      let left := diff32 r.accepted r.completed
      let i := walkScan s c r.accepted left r.completed
      let s := walkWrite fn r left i s
      let s := updRing fn r.pair (fun x => { x with completed := r.accepted, accepted := r.accepted }) s
      let s := updRing fn n (fun x => { x with
        completed := r.accepted, resets := (x.resets + 1) % 2 ^ 32, phase := 1 }) s
      let s := if r.reopen then publish fn n s else closeSubmit fn n s
      postEvent fn 3 0 n (natLe 4 (diff32 r.accepted i)) s

def walksLeft (s : State) (fn : Nat) : List Nat :=
  ((fnOf s fn).rings.filter (fun e => e.2.type == 1 && e.2.phase == 3)).map (·.1)

/-- RESET_WALK: the function's next ring in recovery; WALKING ends with the last. -/
def walkNext (fn : Nat) (s : State) : State :=
  match walksLeft s fn with
  | [] => updFn fn (fun f => { f with walking := false }) s
  | n :: r =>
    let s := walkRing fn n s
    if r.isEmpty then updFn fn (fun f => { f with walking := false }) s else s

def execResetWalk (fn : Nat) (s : State) : Answer :=
  .next (if portUp s && (fnOf s fn).enable then walkNext fn s else s)

/-! ### Interrupts (R87) -/

def execMsixModerationTimer (fn ring : Nat) (s : State) : Answer :=
  .next (match ringAt s fn ring with
    | some r => if r.irqEn ∧ r.modUs ≠ 0 ∧ r.unsignalled ≠ 0 then signalRing fn ring s else s
    | none => s)

/-- A vector unmasked: exactly one message when its pending bit is set. -/
def unmaskVector (fn v : Nat) (s : State) : State :=
  let e := msixOf (fnOf s fn) v
  let s := updFn fn (fun f => { f with msix := tabSet f.msix v { e with masked := false, pendingBit := false } }) s
  if e.masked && e.pendingBit then signalVector fn v s else s

def execMsixUnmask (fn vector : Nat) (s : State) : Answer :=
  .next (if fnUp s fn && decide (vector < 64) then unmaskVector fn vector s else s)

/-! ### Function-level resets (R93, R498, R527) -/

/-- The command came through a ring of the function. -/
def onFunction (fn : Nat) (c : FleosCmd) : Bool :=
  match c.src with
  | .ring f _ _ => f == fn
  | .mgt _ => false

/-- DETAIL of a command that a function-level reset aborts: RESETS plus one of its ring. -/
def abortDetail (s : State) (c : FleosCmd) : Nat :=
  match c.src with
  | .ring f n _ => (((ringAt s f n).map (·.resets)).getD 0 + 1) % 2 ^ 32
  | .mgt _ => 0

/-- Walks that still run end first (R92). -/
def finishWalks (fn : Nat) (s : State) : State := (walksLeft s fn).foldl (fun s n => walkRing fn n s) s

/-- Every record of a function's rings written. -/
def flushRecords (fn : Nat) (s : State) : State :=
  s.cmds.foldl (fun s c => match c.src with
    | .ring f n _ => if f = fn then putRecord fn n s else s
    | .mgt _ => s) s

/-- The ring step: records, then each status record with RESETS increased by one and STATE 0x00. -/
def resetRings (fn : Nat) (s : State) : State :=
  let s := flushRecords fn (finishWalks fn s)
  let s := (fnOf s fn).rings.foldl (fun s e =>
    if e.2.type = 2 then s
    else publish fn e.1 (updRing fn e.1 (fun x => { x with phase := 0, resets := (x.resets + 1) % 2 ^ 32 }) s)) s
  updFn fn (fun f => { f with
    rings := [], refused := [], seen := List.range 512, walkFailed := [], walking := false, ignored := [], eventsLost := 0
    msix := []
    enable := if fn = 0 then f.enable else false }) s

/-- Contexts that a function-level reset ends: the function's own, or every one. -/
def flrContexts (s : State) (fn : Nat) : List Nat :=
  s.contexts.map (·.1) |>.filter (fun c => fn == 0 || fn == c + 1)

/-- A command without a record completes ABORTED_RESET, one whose record was held back too (R93). -/
def abortCmd (order detail : Nat) (s : State) : State :=
  updCmd order (fun c => { c with phase := .done 1 detail 0, time := stampOf s }) s

/-- A function-level reset: stop requests first; once no queue of the contexts concerned runs a command, the contexts end,
the commands of the rings reset complete ABORTED_RESET, and the rings are reset. The answer says whether it completed. -/
def resetFunction (fn : Nat) (s : State) : Bool × State :=
  let cs := flrContexts s fn
  let s := cs.foldl (fun s c => stopCtx c s) s
  if !cs.all (ctxStopped s) then (false, s)
  else
    let fns := if fn = 0 then List.range 17 else [fn]
    let hit (c : FleosCmd) : Bool := fns.any (fun f => onFunction f c)
    let s0 := s
    let s := cs.foldl (fun s x => endContext x none (fun c => if hit c then some (abortDetail s0 c) else none) s) s
    let s := s.cmds.foldl (fun s c => if hit c then abortCmd c.order (abortDetail s0 c) s else s) s
    (true, fns.foldl (fun s f => resetRings f s) s)

def execFunctionLevelReset (fn : Nat) (s : State) : Answer :=
  .next (if fnUp s fn && portUp s then (resetFunction fn s).2 else s)

/-- VF_ENABLE: the VFs that go are reset, and the setting takes its value once their resets have completed. -/
def execVfEnable (enable : Bool) (numVfs : Nat) (s : State) : Answer :=
  .next (
    let now := if s.boot.vfEnable then s.boot.numVfs else 0
    let left := if enable then numVfs else 0
    let gone := (List.range 17).filter (fun f => decide (left < f ∧ f ≤ now))
    let (done, s) := gone.foldl (fun (a : Bool × State) f =>
      let (d, s) := resetFunction f a.2
      (a.1 && d, s)) (true, s)
    if done && decide (numVfs ≤ 16) then { s with boot := { s.boot with vfEnable := enable, numVfs } } else s)

end Sys2Proof.Machine
end

