-- ==== Sys2Proof/Machine/Weights.lean ====
section
/-! DEFINITION. Weights: loads, fan-out chains, replacement behind a barrier, poison, reload and replay (file 13; R132,
R285). -/
namespace Sys2Proof.Machine

/-! ### Layer records (R311, R312) -/

def layersOf (s : State) (ctx : Nat) : Sparse (List Extent) := ((ctxAt s ctx).map (·.layers)).getD []

/-- The extents of a command's layers, in ascending layer order and, within a layer, ascending DEST order (R318). -/
def rangeExtents (s : State) (c : FleosCmd) : List Extent :=
  ((layersOf s c.ctx).filter (fun l => decide (c.wLayer ≤ l.1 ∧ l.1 < c.wLayer + c.wCount))).flatMap (·.2)

/-- An extent entered in its place, over an equal one. -/
def putExtent (x : Extent) : List Extent → List Extent
  | [] => [x]
  | y :: r =>
    if y.dest = x.dest ∧ y.length = x.length then x :: r
    else if x.dest < y.dest then x :: y :: r else y :: putExtent x r

/-- The record of a WEIGHT_LOAD that completes. -/
def recordExtent (c : FleosCmd) (s : State) : State :=
  updCtx c.ctx (fun k =>
    let x : Extent :=
      { dest := c.wDest, length := c.wLen, originKind := c.wSource, originAddr := c.wSrc, state := 0, writeGen := k.generation }
    { k with layers := tabSet k.layers c.wLayer (putExtent x ((tabGet k.layers c.wLayer).getD [])) }) s

/-- The lowest of `n` layers from `first` that a held barrier names (R132, Table 13-4a). -/
def barrierLayer (s : State) (ctx first n : Nat) : Option Nat :=
  match (ctxAt s ctx).bind (·.barrier) with
  | some b => if b.held then (b.layers.filter (fun l => decide (first ≤ l ∧ l < first + n))).min? else none
  | none => none

/-- A peer source needs an exported region that permits the upstream's device (R316). -/
def weightRegion (s : State) (c : FleosCmd) : Bool :=
  match regionOf s c.ctx c.wDest c.wLen with
  | some r => c.wSource == 1 || (r.kind == 2 && decide (r.peerFirst ≤ devField c.wSrc ∧ devField c.wSrc ≤ r.peerLast))
  | none => false

/-- What refuses a WEIGHT_LOAD: status and DETAIL (R132, R312, R316). -/
def loadRefusal (s : State) (c : FleosCmd) : Option (Nat × Nat) :=
  let layers := layersOf s c.ctx
  let mine := tabGet layers c.wLayer
  let same (l : Nat) (x : Extent) : Bool := l == c.wLayer && x.dest == c.wDest && x.length == c.wLen
  match barrierLayer s c.ctx c.wLayer 1 with
  | some l => some (0xB, l)
  | none =>
    if !weightRegion s c then some (4, 0xA00)
    else if mine.isSome && s.cmds.any (fun x => x.opcode == 8 && x.phase == .running && x.ctx == c.ctx) then some (4, 0xA00)
    else if layers.any (fun l => l.2.any (fun x => !same l.1 x && !disjoint x.dest x.length c.wDest c.wLen)) then some (4, 0xA00)
    else if 64 ≤ (mine.getD []).length ∧ (mine.getD []).any (same c.wLayer) = false then some (4, 0x900)
    else none

/-! ### Data (R132, R313, R318) -/

/-- Granules of a host source; what the host cannot give is poisoned (Table 18-3). -/
def hostGrans (s : State) (a n : Nat) : List Granule :=
  (List.range n).map (fun i => if hostBad s (a + 72 * i) 72 then poisonGran else fromHost72 (hostBytes s (a + 72 * i) 72))

/-- Local addresses of a command's granules, in source order. -/
def targetAddrs (s : State) (c : FleosCmd) : List Nat :=
  if c.opcode = 6 then (rangeExtents s c).flatMap (fun x => (List.range (x.length / 64)).map (fun i => x.dest + 64 * i))
  else (List.range (c.wLen / 64)).map (fun i => c.wDest + 64 * i)

def putAt (as : List Nat) (gs : List Granule) (s : State) : State := (as.zip gs).foldl (fun s x => putGran x.1 x.2 s) s

def readAt (as : List Nat) (s : State) : List Granule × State :=
  as.foldl (fun (acc : List Granule × State) a =>
    let (g, s) := loadGran a acc.2
    (acc.1 ++ [g], s)) ([], s)

/-! ### Forwarding (R315 to R317) -/

def updChain (order : Nat) (g : Chain → Chain) (s : State) : State := updCmd order (fun c => { c with chain := g c.chain }) s

/-- A chain offer to the next module. -/
def sendOffer (order : Nat) (s : State) : State :=
  match cmdNo s order with
  | none => s
  | some c =>
    if c.wForward = 0 then s
    else
      emit (.chainOffer (devField c.wForward) c.opcode (devOf s * 2 ^ 42 + c.wDest) (localField c.wForward) c.wLen)
        (updChain order (fun k => { k with offers := k.offers + 1 }) s)

/-- Pieces whole here and not yet forwarded, each with its notice. -/
def forwardPieces (order : Nat) (s : State) : State :=
  match cmdNo s order with
  | none => s
  | some c =>
    if c.wForward = 0 ∨ !c.chain.ready then s
    else
      let as := targetAddrs s c
      let s := (List.range c.wPieces).foldl (fun s n =>
        if c.chain.sent ≤ n ∧ n < c.progress then
          let (gs, s) := readAt ((as.drop (n * 32768)).take 32768) s
          emit (.pieceNotice (devField c.wForward) n false)
            (storeRemote (.cmd order) c.ctx false (c.wForward + n * 2 ^ 21) (gs.length + 1) gs s)
        else s) s
      updChain order (fun k => { k with sent := c.progress }) s

/-- Every forwarded write is acknowledged, or failed. -/
def forwardEnded (s : State) (c : FleosCmd) : Bool :=
  c.wForward == 0 || (c.chain.ready && c.chain.sent == c.wPieces && !outstandingOf s (.cmd c.order))

/-- No ready in 100 ms: the hundredth repetition of the offer found none. -/
def offersSpent (c : FleosCmd) : Bool := decide (100 < c.chain.offers) && !c.chain.ready

/-- A WEIGHT_LOAD whose own extent is whole completes, once its forwarding has ended (R317). -/
def settleLoad (order : Nat) (s : State) : State :=
  match cmdNo s order with
  | none => s
  | some c =>
    if c.opcode ≠ 5 ∨ c.phase ≠ .running ∨ c.progress < c.wPieces then s
    else
      let kept := bump 9 1 c.ctx c.wLen (recordExtent c s)
      if offersSpent c then finish order 8 (devField c.wForward) c.wLen (bump 9 3 c.ctx 1 kept)
      else if !forwardEnded s c then s
      else
        match c.chain.dead with
        | some d => finish order 7 d c.wLen kept
        | none => finishOk order c.wLen (if c.wForward = 0 then kept else bump 9 2 c.ctx c.wLen kept)

/-- WEIGHT_LOAD: a host source is read whole, a peer source comes in pieces. -/
def execWeightLoad (src : CmdSrc) (s : State) : Answer :=
  runCmd 5 src (fun c s =>
    match loadRefusal s c with
    | some (st, d) => finish c.order st d 0 s
    | none =>
      let s := sendOffer c.order s
      if c.wSource = 2 then settleLoad c.order s
      else
        let gs := hostGrans s c.wSrc (c.wLen / 64)
        let s := putAt (targetAddrs s c) gs s
        match gs.findIdx? isPoison with
        | some i =>
          let s := if c.wForward = 0 then s else emit (.pieceNotice (devField c.wForward) (i / 32768) true) s
          finishPoisoned c (c.wSrc + 72 * i) s
        | none => settleLoad c.order (updCmd c.order (fun x => { x with progress := x.wPieces }) s))
    (fun c s => settleLoad c.order (forwardPieces c.order s)) s

/-! ### Replacement (R318 to R322) -/

/-- What refuses a WEIGHT_REPLACE. -/
def replaceRefusal (s : State) (c : FleosCmd) : Option (Nat × Nat) :=
  let layers := layersOf s c.ctx
  let ex := rangeExtents s c
  match barrierLayer s c.ctx c.wLayer c.wCount with
  | some l => some (0xB, l)
  | none =>
    if (List.range c.wCount).any (fun i => (tabGet layers (c.wLayer + i)).isNone) then some (3, 0x500 + 18)
    else if (ex.map (·.dest)).head? ≠ some c.wDest then some (3, 0x300 + 32)
    else if ex.foldl (fun t x => t + x.length) 0 ≠ c.wLen then some (3, 0x300 + 40)
    else if c.wSource = 2 ∧ weightRegion s c = false then some (4, 0xA00)
    else none

/-- The barrier that a command raised and still holds. -/
def ownBarrier (s : State) (c : FleosCmd) : Bool :=
  match (ctxAt s c.ctx).bind (·.barrier) with
  | some b => b.cmd == some c.order && b.held
  | none => false

/-- The context's frame programs are held, as by PROGRAM_STOP MODE 0x01 (R322). -/
def parkContext (ctx : Nat) (s : State) : State :=
  match ctxAt s ctx with
  | none => s
  | some c => c.programs.foldl (fun s p => if p.2.isFrame then settleProgram ctx p.1 (requestStop p.2 s) else s) s

/-- A layer of the context is being reloaded. -/
def reloading (c : Context) : Bool := c.layers.any (fun l => l.2.any (fun x => x.state == 1))

/-- A WEIGHT_REPLACE fails: what is rewritten stays, the context is parked, the barrier released (R322). -/
def failReplace (order status detail result : Nat) (s : State) : State :=
  match cmdNo s order with
  | none => s
  | some c =>
    let s := if ownBarrier s c then
        parkContext c.ctx (updCtx c.ctx (fun k => { k with
          barrier := if reloading k then k.barrier.map (fun b => { b with cmd := none, finished := true }) else none }) s)
      else s
    let s := recordErr { blankErr 28 with ctx := c.ctx, detail := status } (bump 9 5 c.ctx 1 s)
    finish order status detail result s

/-- Running lists of programs that are not frame programs go on to END first (Table 13-3). -/
def listsRun (s : State) (ctx : Nat) : Bool :=
  (ctxQueues s ctx).any (fun x => !isFrameQueue s x && (x.state == 2 || x.state == 3))

/-- Origins of the extents of a range, each its part of the source. -/
def newOrigins (c : FleosCmd) (gen : Nat) : (off : Nat) → List Extent → List Extent
  | _, [] => []
  | off, x :: r =>
    { x with originKind := c.wSource, originAddr := c.wSrc + (if c.wSource = 1 then off / 64 * 72 else off), state := 0
             writeGen := gen } :: newOrigins c gen (off + x.length) r

/-- The records of the layers rewritten wholly by the first `upTo` bytes of the source (R318, R322). -/
def setOrigins (c : FleosCmd) (upTo : Nat) (s : State) : State :=
  updCtx c.ctx (fun k => { k with layers := (k.layers.foldl (fun (acc : Sparse (List Extent) × Nat) (l : Nat × List Extent) =>
    if c.wLayer ≤ l.1 ∧ l.1 < c.wLayer + c.wCount ∧ acc.2 + (l.2.map (·.length)).sum ≤ upTo then
      (acc.1 ++ [(l.1, newOrigins c k.generation acc.2 l.2)], acc.2 + (l.2.map (·.length)).sum)
    else (acc.1 ++ [l], acc.2)) ([], 0)).1 }) s

/-- Granules of the range that lie in layers wholly before granule `i` of the source. -/
def wholeBefore (s : State) (c : FleosCmd) (i : Nat) : Nat :=
  ((layersOf s c.ctx).foldl (fun (acc : Nat × Nat) l =>
    if c.wLayer ≤ l.1 ∧ l.1 < c.wLayer + c.wCount then
      let t := acc.2 + (l.2.map (·.length)).sum / 64
      (if t ≤ i then t else acc.1, t)
    else acc) (0, 0)).1

/-- A Tier Engine transfer in flight reads from a local extent: one of a schedule, or a COPY or REPLICATE that runs (R285). -/
def transferOver (s : State) (a len : Nat) : Bool :=
  s.fab.xfers.any (fun x => x.here && decide (x.round < 3) && !disjoint x.src (64 * x.len) a len)
  || s.eng.queues.any (fun e => e.2.state == 3 && e.2.worked && (match headOf e.2 with
    | some c => c.engine == Engine.te.code && decide (c.opcode = 0x10 ∨ c.opcode = 0x11)
        && !(resolveAddr s (decide (c.opcode = 0x10) && bitOf (c.body 52 1) 0) (c.body 32 8)).1
        && !disjoint (resolveAddr s (decide (c.opcode = 0x10) && bitOf (c.body 52 1) 0) (c.body 32 8)).2 (64 * c.body 48 4) a len
    | none => false))

/-- The rewrite, once the barrier is held, no list of a program that is not a frame program runs and no transfer in flight
reads from the range. -/
def rewriteNow (order : Nat) (s : State) : State :=
  match cmdNo s order with
  | none => s
  | some c =>
    if c.opcode ≠ 6 ∨ c.phase ≠ .running ∨ c.note ≠ 0 ∨ ownBarrier s c = false ∨ listsRun s c.ctx = true
        ∨ (rangeExtents s c).any (fun x => transferOver s x.dest x.length) = true then s
    else
      let s := sendOffer order (updCmd order (fun x => { x with note := 1 }) s)
      if c.wSource = 2 then s
      else
        let gs := hostGrans s c.wSrc (c.wLen / 64)
        let as := targetAddrs s c
        match gs.findIdx? isPoison with
        | some i =>
          let n := wholeBefore s c i
          let s := setOrigins c (64 * n) (putAt (as.take n) (gs.take n) s)
          let s := if c.wForward = 0 then s else emit (.pieceNotice (devField c.wForward) (i / 32768) true) s
          let (k, s) := takeNat 31 s
          let s := recordErr { blankErr (k + 1) with unitKind := 6, ctx := c.ctx, addr := c.wSrc + 72 * i } s
          failReplace order 6 (lastErrOf s (k + 1)) 0 s
        | none =>
          setOrigins c c.wLen (putAt as gs (updCmd order (fun x => { x with progress := x.wPieces }) s))

/-- WEIGHT_REPLACE: judged as it runs; its barrier rises at a tick; its row again begins the rewrite. -/
def execWeightReplace (src : CmdSrc) (s : State) : Answer :=
  runCmd 6 src (fun c s =>
    match replaceRefusal s c with
    | some (st, d) => finish c.order st d 0 s
    | none => s) (fun c s => forwardPieces c.order (rewriteNow c.order s)) s

/-- The hot pools of the layers of a range are emptied; pins stay (R285). A pool without cold experts keeps its experts for
good (R271). -/
def emptyPools (ctx first n : Nat) (s : State) : State :=
  updCtx ctx (fun k => { k with hotPools := k.hotPools.map (fun (h : Nat × HotPool) =>
    if first ≤ h.1 ∧ h.1 < first + n ∧ h.2.coldBase ≠ 0 then (h.1, { h.2 with slots := h.2.slots.map (fun x => { x with expert := none }) }) else h) }) s

/-- A barrier whose rewrite and reloads have ended is released; a replacement then completes with the new generation
number, and the schedules are primed (R319, R326). -/
def releaseBarrier (ctx : Nat) (s : State) : State :=
  match ctxAt s ctx with
  | none => s
  | some k =>
    match k.barrier with
    | none => s
    | some b =>
      if !b.finished || reloading k then s
      else
        let s := primeContext ctx (updCtx ctx (fun k => { k with barrier := none }) s)
        match b.cmd.bind (cmdNo s) with
        | some c => finishOk c.order k.generation (bump 9 4 ctx 1 (emptyPools ctx c.wLayer c.wCount s))
        | none => s

/-- What is placed at the next tick happens at once where no tick occurs (R471). -/
def releaseNow (ctx : Nat) (s : State) : State := if inMode s .ready then s else releaseBarrier ctx s

/-- Payload bytes of a command written here. -/
def FleosCmd.written (c : FleosCmd) : Nat := min c.wLen (c.progress * 2 ^ 21)

/-- REPLACE_REWRITE_DONE: the last rewrite and forward are acknowledged: the generation number rises, and the barrier is
released at the next tick; or the forwarding has failed. -/
def execReplaceRewriteDone (ctx : Nat) (s : State) : Answer :=
  .next (if s.pwr.stopped then s else match ((ctxAt s ctx).bind (·.barrier)).bind (·.cmd) with
    | none => s
    | some o =>
      let s := forwardPieces o (rewriteNow o s)
      match cmdNo s o with
      | none => s
      | some c =>
        if c.phase ≠ .running ∨ c.note ≠ 1 ∨ c.progress < c.wPieces then s
        else if offersSpent c then failReplace o 8 (devField c.wForward) c.written (bump 9 3 ctx 1 s)
        else if !forwardEnded s c then s
        else
          match c.chain.dead with
          | some d => failReplace o 7 d c.written s
          | none =>
            let s := bump 9 1 ctx c.wLen (if c.wForward = 0 then s else bump 9 2 ctx c.wLen s)
            let s := emptyPools ctx c.wLayer c.wCount (updCmd o (fun x => { x with note := 2 }) s)
            let s := updCtx ctx (fun k => { k with
              generation := (k.generation + 1) % 2 ^ 64, barrier := k.barrier.map (fun b => { b with finished := true }) }) s
            releaseNow ctx (setCounter 9 0 ctx (((ctxAt s ctx).map (·.generation)).getD 0) s))

/-! ### Chains (R315 to R317) -/

/-- A weight command that runs. -/
def weightCmd (s : State) (src : CmdSrc) : Option FleosCmd :=
  match cmdOf s src with
  | some c => if (c.opcode = 5 ∨ c.opcode = 6) ∧ c.phase = .running then some c else none
  | none => none

/-- CHAIN_OFFER: the offer repeated 1 ms later; after 100 ms without ready the forwarding has failed. -/
def execChainOffer (src : CmdSrc) (s : State) : Answer :=
  .next (match weightCmd s src with
    | none => s
    | some c =>
      if c.wForward = 0 ∨ c.chain.ready ∨ c.chain.offers = 0 ∨ 100 < c.chain.offers then s
      else if c.chain.offers < 100 then sendOffer c.order s
      else
        let s := updChain c.order (fun k => { k with offers := 101 }) s
        if c.opcode = 5 then settleLoad c.order s
        else if c.progress < c.wPieces then s
        else failReplace c.order 8 (devField c.wForward) c.written (bump 9 3 c.ctx 1 s))

def execChainReady (src : CmdSrc) (s : State) : Answer :=
  .next (match weightCmd s src with
    | none => s
    | some c =>
      if c.wForward = 0 ∨ c.chain.offers = 0 ∨ 100 < c.chain.offers then s
      else settleLoad c.order (forwardPieces c.order (updChain c.order (fun k => { k with ready := true }) s)))

/-- An upstream's offer: ready only for a matching command that runs here, a replacement's only once its rewrite may begin. -/
def execChainOfferReceive (dev opcode srcAddr destAddr length : Nat) (s : State) : Answer :=
  .next (
    let s := if opcode = 6 then s.cmds.foldl (fun s c => rewriteNow c.order s) s else s
    match s.cmds.find? (fun c => c.opcode == opcode && (opcode == 5 || opcode == 6) && c.phase == .running && c.wSource == 2
        && c.wSrc == srcAddr && devField srcAddr == dev && c.wDest == destAddr && c.wLen == length
        && (opcode == 5 || c.note == 1)) with
    | none => s
    | some c => emit (.chainReady dev) (updChain c.order (fun k => { k with offered := true }) s))

/-- PIECE_NOTICE: a piece is whole here, and goes on to the next module; POISONED ends the command and is passed on. -/
def execPieceNotice (src : CmdSrc) (piece : Nat) (poisoned : Bool) (s : State) : Answer :=
  .next (match weightCmd s src with
    | none => s
    | some c =>
      if c.wSource ≠ 2 ∨ c.chain.offered = false ∨ c.wPieces ≤ piece then s
      else if poisoned then
        let s := if c.wForward = 0 then s else emit (.pieceNotice (devField c.wForward) piece true) s
        if c.opcode = 5 then finishPoisoned c (c.wSrc + piece * 2 ^ 21) s
        else
          let (k, s) := takeNat 31 s
          let s := recordErr { blankErr (k + 1) with ctx := c.ctx, addr := c.wSrc + piece * 2 ^ 21 } s
          failReplace c.order 6 (lastErrOf s (k + 1)) 0 (setOrigins c c.written s)
      else if piece ≠ c.progress then s
      else
        let s := updCmd c.order (fun x => { x with progress := x.progress + 1 }) s
        let s := if c.opcode = 6 ∧ c.progress + 1 = c.wPieces then setOrigins c c.wLen s else s
        settleLoad c.order (forwardPieces c.order s))

/-- PEER_SOURCE_TIMEOUT: 100 ms of silence of a peer source; nothing is recorded (R132, R317). -/
def execPeerSourceTimeout (src : CmdSrc) (s : State) : Answer :=
  .next (match weightCmd s src with
    | none => s
    | some c =>
      if c.wSource ≠ 2 ∨ c.wPieces ≤ c.progress then s
      else if c.opcode = 5 then finish c.order 8 (devField c.wSrc) 0 s
      else failReplace c.order 8 (devField c.wSrc) 0 (setOrigins c c.written s))

/-! ### Reload and replay (R324 to R329) -/

/-- Layers that a replacement, waiting or held, rewrites. -/
def replacedLayer (s : State) (ctx layer : Nat) : Bool :=
  s.cmds.any (fun c => c.opcode == 6 && c.phase == .running && c.ctx == ctx
    && decide (c.wLayer ≤ layer ∧ layer < c.wLayer + c.wCount))

/-- The reload of a layer begins: its extents show STATE 0x01, and peers are asked for theirs. -/
def startReload (ctx layer : Nat) (s : State) : State :=
  let xs := (tabGet (layersOf s ctx) layer).getD []
  let s := updCtx ctx (fun k => { k with layers := tabUpd k.layers layer (fun l => l.map (fun x => { x with state := 1 })) }) s
  let s := bump 9 7 ctx 1 s
  xs.foldl (fun s x =>
    if x.originKind = 2 then
      let (remote, a) := resolveAddr s true x.originAddr
      if remote then startRemote (.weight ctx) false a x.dest (x.length / 64) false s
      else
        let (gs, s) := loadGrans (x.length / 64) a s
        let (_, s) := newXfer (.weight ctx) a x.dest (x.length / 64) false 2 false true (putGrans x.dest gs s)
        s
    else s) s

/-- Poison found since the last tick: the replay barrier, or more work under the one held (R326). -/
def takePoison (ctx k : Nat) (s : State) : State :=
  match ctxAt s ctx with
  | none => s
  | some c =>
    let ls := c.poisonedLayers.filter (fun l => !replacedLayer s ctx l)
    let s := updCtx ctx (fun c => { c with poisonedLayers := [] }) s
    if ls.isEmpty then s
    else
      let b : Barrier := match c.barrier with
        | some b => { b with layers := b.layers ++ ls.filter (fun l => !b.layers.contains l) }
        | none => { cmd := none, layers := ls.mergeSort, held := true, from_ := k, finished := true }
      let s := updCtx ctx (fun c => { c with barrier := some b }) s
      let s := c.programs.foldl (fun s p => if p.2.isFrame then s else settleProgram ctx p.1 (requestStop p.2 s)) s
      ls.mergeSort.foldl (fun s l => startReload ctx l s) s

/-- One extent's reload ended: host origins are read here; a failed one is lost, with a record. -/
def endReload (ctx layer : Nat) (x : Extent) (s : State) : Bool × State :=
  let set (st : Nat) (s : State) : State := updCtx ctx (fun k => { k with layers := tabUpd k.layers layer (fun l =>
    l.map (fun y => if y.dest = x.dest ∧ y.length = x.length then
      { y with state := st, writeGen := if st = 0 then k.generation else y.writeGen } else y)) }) s
  let lost (s : State) : Bool × State :=
    (false, recordErr { blankErr 27 with ctx, addr := x.dest, detail := layer } (bump 9 8 ctx 1 (set 2 s)))
  if x.originKind = 2 then
    match s.fab.xfers.find? (fun y => y.use == .weight ctx && y.dst == x.dest) with
    | some y => if y.failed then lost s else (true, set 0 s)
    | none => lost s
  else
    let gs := hostGrans s x.originAddr (x.length / 64)
    if gs.any isPoison then lost s else (true, set 0 (putGrans x.dest gs s))

/-- RELOAD_DONE: every extent in reload is written, or lost; a failure parks the context and releases the barrier. -/
def execReloadDone (ctx : Nat) (s : State) : Answer :=
  .next (if s.pwr.stopped then s else match ctxAt s ctx with
    | none => s
    | some c =>
      let busy := s.fab.xfers.any (fun x => x.use == .weight ctx && decide (x.round < 2) && !x.failed)
      if !reloading c || busy then s
      else
        let (ok, s) := c.layers.foldl (fun (acc : Bool × State) (l : Nat × List Extent) =>
          (l.2.filter (fun x => x.state == 1)).foldl (fun (acc : Bool × State) x =>
            let (d, s) := endReload ctx l.1 x acc.2
            (acc.1 && d, s)) acc) (true, s)
        let s := { s with fab := { s.fab with xfers := s.fab.xfers.filter (fun x => x.use != .weight ctx) } }
        if ok then releaseNow ctx s
        else
          updCtx ctx (fun k => { k with barrier := match k.barrier with
            | some b => if b.cmd.isSome then some b else none
            | none => none }) (parkContext ctx s))

/-! ### Barriers at a tick (R319, R326, R327; R406 step 1) -/

/-- The oldest replacement that waits for its barrier and may raise it. `k` is the tick, none where the module leaves the
herd. -/
def raiseBarrier (ctx : Nat) (k : Option Nat) (s : State) : State :=
  match ctxAt s ctx with
  | none => s
  | some c =>
    if c.barrier.isSome then s
    else
      match s.cmds.find? (fun x => x.opcode == 6 && x.phase == .running && x.ctx == ctx && x.note == 0) with
      | none => s
      | some x =>
        if (match k with | some t => decide (x.frame < t) && launchCome s x | none => true) then
          let b : Barrier :=
            { cmd := some x.order, layers := (List.range x.wCount).map (x.wLayer + ·), held := true, from_ := k.getD 0
              finished := false }
          updCtx ctx (fun c => { c with barrier := some b }) s
        else s

/-- A stream of the context was affected in the frame that ends. -/
def wasAffected (s : State) (ctx : Nat) : Bool := s.streams.any (fun x => x.2.ctx == ctx && x.2.retake && x.2.stepped)

/-- A stream of the context still has a step to retake. -/
def owesRetake (s : State) (ctx : Nat) : Bool := s.streams.any (fun x => x.2.ctx == ctx && x.2.retake)

/-- The rungs that a replay frame starts at are those of the frame of the detection: kept while the barrier is held, for the
frame that opens as it is released, and until every step of that frame has been retaken (R204, R327 to R329; log entry 72). -/
def keepRungs (ctx : Nat) (found held : Bool) (s : State) : State :=
  let keep := held || (!found && owesRetake s ctx)
  updCtx ctx (fun c => { c with programs := c.programs.map (fun (p : Nat × Program) =>
    (p.1, { p.2 with replayRungs := if keep then p.2.replayRungs else if found then p.2.rungs else [], rungs := [] })) }) s

/-- One context's barriers at tick `k`, with the generation number in effect (R321). -/
def tickBarrier (ctx k : Nat) (s : State) : State :=
  let held := barrierHeld s ctx
  let found := (((ctxAt s ctx).map (fun c => !c.poisonedLayers.isEmpty)).getD false) || wasAffected s ctx
  let s := keepRungs ctx found held s
  let s := takePoison ctx k s
  let s := raiseBarrier ctx (some k) (if s.pwr.stopped then s else releaseBarrier ctx s)
  let s := if barrierHeld s ctx then bump 9 6 ctx 1 s else s
  updCtx ctx (fun c => { c with generationAtTick := c.generation }) s

end Sys2Proof.Machine
end

