-- ==== Sys2Proof/Machine/HerdTime.lean ====
section
/-! DEFINITION. Herd time: the counter, the servo, herd-control messages, the master and its deputy, guard windows and
slips (file 02; R471, R475, R477, R492, R493). -/
namespace Sys2Proof.Machine

/-! ### The counter (R23, R24) -/

/-- One cycle of the counter: 1 ns and the rate adjustment, in 2⁻³² ns. It runs once D3 is released. -/
def idleCycle (s : State) : State :=
  if !powerRuns s || inMode s .off then s
  else
    let t := ((s.herd.time * 2 ^ 32 + s.herd.frac + 2 ^ 32 : Nat) + s.herd.rate : Int).toNat
    updHerd (fun h => { h with time := t / 2 ^ 32 % 2 ^ 64, frac := t % 2 ^ 32 }) s

/-- The counter stepped to a time in 2⁻⁸ ns, which ends a span of R423. -/
def stepTo (t : Int) (s : State) : State :=
  breakSpan (updHerd (fun h => { h with time := t.toNat / 256, frac := t.toNat % 256 * 2 ^ 24 }) s)

/-- The counter stepped by an amount in 2⁻⁸ ns (R24). -/
def stepBy (d : Int) (s : State) : State :=
  let t := ((s.herd.time * 2 ^ 32 + s.herd.frac : Nat) + d * 2 ^ 24 : Int).toNat
  breakSpan (updHerd (fun h => { h with time := t / 2 ^ 32, frac := t % 2 ^ 32 }) s)

/-- The first tick at or after a herd time, by the schedule (R38). -/
def ceilTick (h : Herd) (t : Nat) : Nat := h.k0 + (t - h.t0 + h.period - 1) / max 1 h.period - h.s

/-- The last tick at or before a herd time. -/
def floorTick (h : Herd) (t : Nat) : Nat := h.k0 + (t - h.t0) / max 1 h.period - h.s

/-! ### Who hears the master (R46, R475) -/

/-- The measured send time: the largest of the last 64, the bound until one has been sent. -/
def sendTime (s : State) : Nat :=
  if s.herd.sendTimes.isEmpty then sendBound (herdOthers s).length else s.herd.sendTimes.foldl max 0

/-- Worst-case broadcast latency: the largest path delay and the send time. -/
def broadcastNs (s : State) : Nat := s.herd.pathDelay.foldl (fun m e => max m e.2) 0 + sendTime s

/-- G_min in µs, as the master forms it (R45, R46). -/
def gminOf (s : State) : Nat :=
  let own := broadcastNs s
  let dep := s.herd.bcastNs.getD (backupNs s + own)
  let lb := if s.herd.deputyDev < 16384 then max own dep else own
  (lb + 2000 + 999) / 1000

/-- The effective guard of a master in ns. -/
def effGuard (h : Herd) : Nat := max h.setGuard (h.gminUs * 1000)

/-- The master reports that its set guard has fallen below G_min: at the change that makes it so (R45, log entry 67). -/
def reportGuard (before : Herd) (s : State) : State :=
  let short (h : Herd) : Bool := decide (h.setGuard < h.gminUs * 1000)
  if short s.herd && !(before.isMaster && short before) then emit (.guardReport s.herd.setGuard s.herd.gminUs) s else s

/-- A published guard taken: it applies from the first tick whose window opens at least one interval after the SYNC that
first carries it (R46). -/
def takeGuard (g sentAt : Nat) (s : State) : State :=
  if g = s.herd.guard then updHerd (fun h => { h with guardNext := none }) s
  else if (s.herd.guardNext.map (·.1)) = some g then s
  else updHerd (fun h => { h with guardNext := some (g, max (nextTick s) (ceilTick h (sentAt + syncNs s + g))) }) s

/-! ### Receiving (R31, R58, R548) -/

/-- Reserved body bytes of Table 2-3 are zero. -/
def bodyClean (m : HerdMsg) : Bool :=
  let z (off : Nat) : Bool := leNat (m.body.drop (off - 24)) == 0
  match m.type with
  | 1 => decide (msgField m 57 1 < 8) && decide (msgField m 58 2 < 16384 ∨ msgField m 58 2 = 0xFFFF) && z 60
  | 2 => z 28
  | 3 => z 40
  | 4 => z 44
  | 5 => z 46
  | 6 => z 34
  | 7 => z 41
  | 8 => z 56
  | 9 => z 25
  | _ => false

/-- A master stops acting as master, reports the fact and follows a higher EPOCH; whose herd it is, the next SYNC says. Its
holdover limit counts from now (R58, log entry 67). -/
def stepDown (epoch : Nat) (s : State) : State :=
  emit (.steppedDown epoch) (updHerd (fun h => { h with
    isMaster := false, epoch, masterDev := devOf s, locked := true, heard := true, steppedSync := true, steppedDelay := true
    holdover := true, samples := [], members := [], candidates := [], deputyDev := 0xFFFF, lastT2 := time256 s }) s)

/-- Types whose SEQ is judged. -/
def seqTyped (t : Nat) : Bool := t == 1 || t == 2 || t == 3 || t == 7

/-- A message met by its receiver: whether it has an effect. One that R31 discards is counted. Outside HERD and READY only
DELAY_REQ is answered. -/
def receive (t : Nat) (m : HerdMsg) (s : State) : Bool × State :=
  if m.type ≠ t then (false, if m.type = 0 ∨ 9 < m.type then bump 1 22 0 1 s else s)
  else if !powerRuns s || inMode s .off then (false, s)
  else if m.version ≠ 1 ∨ 16384 ≤ m.srcDev ∨ bodyClean m = false
      ∨ (m.epoch < s.herd.epoch ∧ ¬(t = 8 ∧ s.herd.isMaster = true)) then (false, bump 1 22 0 1 s)
  else if !inHerd s && t != 2 then (false, s)
  else
    let s := if s.herd.isMaster ∧ s.herd.epoch < m.epoch then stepDown m.epoch s else s
    let key := (t, m.srcDev, m.epoch)
    match (if seqTyped t then (s.herd.seqIn.find? (fun e => e.1 == key)).map (·.2) else none) with
    | some last =>
      let d := diff32 m.seq last
      if d = 0 ∨ 2 ^ 31 ≤ d then (false, s)
      else (true, updHerd (fun h => { h with seqIn := (key, m.seq) :: h.seqIn.filter (fun e => e.1 != key) }) s)
    | none =>
      (true, if seqTyped t then updHerd (fun h => { h with seqIn := (key, m.seq) :: h.seqIn }) s else s)

/-- A new master and its EPOCH adopted: a locked module goes into holdover, one not locked steps to it afresh (R24, R57). -/
def adoptMaster (dev epoch : Nat) (s : State) : State :=
  let l := s.herd.locked
  updHerd (fun h => { h with
    epoch, masterDev := dev, isMaster := false, samples := [], holdover := l, steppedSync := l, steppedDelay := l
    lockRun := if l then h.lockRun else 0 }) s

/-! ### Leaving READY for HERD (R35, R59, R477) -/

/-- What a module knows of a herd it follows, forgotten: it seeks a master anew. -/
def seekAfresh (h : Herd) : Herd :=
  { h with
    locked := false, lockRun := 0, epoch := 0, isMaster := false, isDeputy := false, deputyDev := 0xFFFF, heard := false
    steppedSync := false, steppedDelay := false, samples := [], holdover := false, delayOut := [], syncCount := 0
    admitted := false, joinSent := none, inFrame := false, diverged := false, change := none, guardNext := none
    records := [], decided := [], members := [], candidates := [] }

/-- A member leaves READY for HERD and rejoins as a candidate; a candidate that is not a member seeks again. -/
def leaveToHerd (s : State) : State :=
  if inMode s .ready then
    let s := leaveFrames s
    let s := updHerd (fun h => { seekAfresh h with rejoining := true, joinCmd := none }) s
    postEvent 0 8 0 0xFFFF (natLe 1 0) (breakSpan { s with boot := { s.boot with mode := .herd } })
  else updHerd seekAfresh s

/-! ### The servo (R32 to R36) -/

/-- Clamp of ±200 ppm in units of 2⁻³². -/
def clampRate (a : Int) : Int := max (-858993) (min 858993 a)

/-- Path delay to the master in 2⁻⁸ ns: the mean of the delay samples. -/
def pathOf (h : Herd) : Int := h.samples.foldl (· + ·) 0 / (max 1 h.samples.length : Nat)

/-- One update of R33 for a SYNC with t1, at t2; theta of a herd-time fault where there is one. -/
def servo (t1 t2 : Int) (s : State) : Option Int × State :=
  if s.herd.holdover || s.herd.samples.isEmpty then (none, s)
  else
    let theta := t2 - (t1 + pathOf s.herd)
    if s.herd.locked ∧ (256000 < theta ∨ theta < -256000) then (some theta, s)
    else
      let i : Int := (syncNs s : Nat)
      let freq := s.herd.freq - theta * 2 ^ 24 / (16 * i)
      let good := decide (-6400 ≤ theta) && decide (theta ≤ 6400)
      let run := if good then s.herd.lockRun + 1 else 0
      (none, updHerd (fun h => { h with
        freq, rate := clampRate (freq - theta * 2 ^ 24 / (2 * i)), lockRun := run, locked := h.locked || decide (16 ≤ run) }) s)

/-- A herd-time fault: its record, and the module leaves the herd (R35). -/
def herdTimeFault (theta : Int) (s : State) : State :=
  leaveToHerd (recordErr { blankErr 0x16 with unitKind := 5, detail := fieldOf 64 (theta / 256) } s)

/-- DELAY_REQ to a device; only the deputy's to the master reports BCAST_NS. -/
def sendDelayReq (dst : Nat) (t1 t2 : Int) (s : State) : State :=
  let bcast := if s.herd.isDeputy ∧ dst = s.herd.masterDev then backupNs s + broadcastNs s else 0
  let seq := tabNat s.herd.seqOut 2
  let s := updHerd (fun h => { h with delayOut := tabSet h.delayOut dst (seq, time256 s, t1, t2) }) s
  sendHerd dst 2 (natLe 4 bcast) s

/-- The deputy's sweep: the next module in ascending device number (R46). -/
def sweep (s : State) : State :=
  if !s.herd.isDeputy then s
  else
    let ds := ((herdOthers s).filter (fun d => decide (d ≠ s.herd.masterDev))).mergeSort
    match (ds.find? (fun d => decide (s.herd.sweepAt < d))).orElse (fun _ => ds.head?) with
    | some d => sendDelayReq d 0 0 (updHerd (fun h => { h with sweepAt := d }) s)
    | none => s

/-- DELAY_REQ after a SYNC: each one until locked and out of holdover, else every DELAY_EVERY-th. -/
def delayAfterSync (t1 t2 : Int) (s : State) : State :=
  let n := s.herd.syncCount + 1
  if !s.herd.locked || s.herd.holdover || decide (delayEvery s ≤ n) then
    sendDelayReq s.herd.masterDev t1 t2 (updHerd (fun h => { h with syncCount := 0 }) s)
  else updHerd (fun h => { h with syncCount := n }) s

/-- JOIN to the master and to the deputy that the last SYNC names (R475). -/
def sendJoin (s : State) : State :=
  let ds := s.herd.masterDev :: (if s.herd.deputyDev < 16384 ∧ s.herd.deputyDev ≠ devOf s then [s.herd.deputyDev] else [])
  broadcastHerd ds.eraseDups 8 (s.herd.planDigest.take 32) s

/-- A candidate that is locked sends its first JOIN (R475). -/
def joinWhenLocked (s : State) : State :=
  if inMode s .herd && s.herd.locked && !s.herd.admitted && s.herd.joinSent.isNone then
    updHerd (fun h => { h with joinSent := some h.time }) (sendJoin s)
  else s

/-! ### SYNC (R33, R38, R39, R49, R53) -/

/-- SLIP_COUNT of a SYNC with the module's own T0 and K0 above its s: the slip that it missed. The held tick is the coming
one if the SYNC left after that tick's window opened, else the tick of the frame running (log entry 30). -/
def missedSlip (newS sentAt : Nat) (s : State) : State :=
  let k := nextTick s
  let held := if s.herd.inFrame ∧ sentAt + guardFor s.herd k < tickTime s.herd k ∧ s.herd.diverged = false then s.herd.frame else k
  takeSlip held newS 0 0 0 s

/-- The schedule a SYNC carries, taken unless it left before a frame change made here. With the T0 and K0 that the module
holds, a higher SLIP_COUNT is a slip that it missed; with others, which R53 does not treat, `s` is the SYNC's SLIP_COUNT
(DESIGN CHOICE, log entry 66). -/
def takeSchedule (m : HerdMsg) (first fresh : Bool) (s : State) : State :=
  let h := s.herd
  let t0 := msgField m 24 8
  let k0 := msgField m 32 8
  let n := msgField m 48 8
  let g := msgField m 44 4
  if first then
    updHerd (fun h => { h with
      t0, k0, period := msgField m 40 4, s := n, guard := g, guardNext := none, slipMax := msgField m 56 1 }) s
  else if !fresh && decide (k0 < h.k0) then s
  else
    let s := if t0 = h.t0 ∧ k0 = h.k0 then (if h.s < n then missedSlip n m.originTs s else s)
      else updHerd (fun h => { h with s := n }) s
    takeGuard g m.originTs (updHerd (fun h => { h with t0, k0, period := msgField m 40 4, slipMax := msgField m 56 1 }) s)

/-- A SYNC from the master: servo, schedule, delay exchange. -/
def takeSync (m : HerdMsg) (s : State) : State :=
  let first := !s.herd.heard
  let fresh := first || decide (s.herd.epoch < m.epoch) || s.herd.masterDev == devOf s
  let s := if fresh then adoptMaster m.srcDev m.epoch s else s
  if s.herd.isMaster || s.herd.masterDev != m.srcDev then s
  else
    let t1 := msgSent m
    let s := updHerd (fun h => { h with
      heard := true, lastOrigin := m.originTs, interval := msgField m 57 1, deputyDev := msgField m 58 2, isDeputy := msgField m 58 2 == devOf s }) (beginInterval s)
    let s := if !s.herd.locked && !s.herd.steppedSync then
        updHerd (fun h => { h with steppedSync := true, lockRun := 0 }) (stepTo t1 s) else s
    let t2 := time256 s
    match servo t1 t2 s with
    | (some theta, s) => herdTimeFault theta s
    | (none, s) =>
      let s := takeSchedule m first fresh s
      let s := updHerd (fun h => { h with lastT1 := t1, lastT2 := t2 }) s
      joinWhenLocked (sweep (delayAfterSync t1 t2 s))

def execSync (m : HerdMsg) (s : State) : Answer :=
  .next (let (ok, s) := receive 1 m s
    if ok && !s.herd.isMaster then takeSync m s else s)

/-! ### Delay exchanges (R24, R32, R33, R46) -/

/-- A path delay in whole ns, rounded up, from 2⁻⁸ ns. -/
def wholeNs (d : Int) : Nat := ((d + 255) / 256).toNat

/-- Every module answers a DELAY_REQ; the master keeps the sender's path delay and the deputy's BCAST_NS. -/
def execDelayReq (m : HerdMsg) (s : State) : Answer :=
  .next (let (ok, s) := receive 2 m s
    if !ok then s
    else
      let path := wholeNs (time256 s - msgSent m)
      let s := if s.herd.isMaster then updHerd (fun h => { h with
          pathDelay := tabSet h.pathDelay m.srcDev path
          bcastNs := if m.srcDev = h.deputyDev then some (msgField m 24 4) else h.bcastNs }) s else s
      sendHerd m.srcDev 3 (natLe 8 s.herd.time ++ natLe 4 (subNs s) ++ natLe 4 m.seq) s)

/-- A delay sample with the master, which completes the first exchange of a module not locked with the second step. -/
def takeSample (sample : Int) (s : State) : State :=
  let s := updHerd (fun h => { h with samples := (sample :: h.samples).take 8 }) s
  let s := updHerd (fun h => { h with
    pathDelay := tabSet h.pathDelay h.masterDev (wholeNs (pathOf h))
    holdover := h.holdover && decide (h.samples.length < 8) }) s
  if s.herd.steppedDelay then s
  else updHerd (fun h => { h with steppedDelay := true }) (stepBy sample s)

def execDelayResp (m : HerdMsg) (s : State) : Answer :=
  .next (let (ok, s) := receive 3 m s
    if !ok then s
    else
      match tabGet s.herd.delayOut m.srcDev with
      | none => s
      | some (seq, t3, t1p, t2p) =>
        if msgField m 36 4 ≠ seq then s
        else
          let t4 : Int := (msgField m 24 8 * 256 : Nat) + signedOf 32 (msgField m 32 4)
          let s' := updHerd (fun h => { h with delayOut := tabDel h.delayOut m.srcDev }) s
          if m.srcDev = s.herd.masterDev ∧ s.herd.isMaster = false then takeSample (((t2p - t1p) + (t4 - t3)) / 2) s'
          else
            let path := wholeNs (((t4 - t3) + (time256 s - msgSent m)) / 2)
            updHerd (fun h => { h with pathDelay := tabSet h.pathDelay m.srcDev path }) s')

/-! ### Slips (R48 to R54) -/

def execSlipReq (m : HerdMsg) (s : State) : Answer :=
  .next (let (ok, s) := receive 4 m s
    if !ok || !(s.herd.isMaster || s.herd.isDeputy) then s
    else takeRequest { frame := msgField m 24 8, s := msgField m 32 8, dev := m.srcDev, cause := msgField m 40 1, engine := msgField m 41 1
                       queue := msgField m 42 2 } s)

def execSlip (m : HerdMsg) (s : State) : Answer :=
  .next (let (ok, s) := receive 5 m s
    if !ok ∨ m.epoch ≠ s.herd.epoch then s
    else takeSlip (msgField m 24 8) (msgField m 32 8) (msgField m 42 1) (msgField m 44 2) (msgField m 40 2) s)

/-- GUARD_WINDOW_OPEN: the master decides at tick k − G; the deputy notes the decision of its own record. -/
def execGuardWindowOpen (s : State) : Answer :=
  .next (if !inMode s .ready || !(s.herd.isMaster || s.herd.isDeputy) then s
    else
      let k := nextTick s
      decideWindow k (advanceTo (tickTime s.herd k - guardFor s.herd k) s))

/-- The deputy's backup at tick k − G + D_b: it holds requests for the tick and has no SLIP for it, and the limit of
consecutive slips is not reached (R52). -/
def backupSlip (k : Nat) (s : State) : State :=
  let s := decideWindow k (advanceTo (tickTime s.herd k - guardFor s.herd k) s)
  let s := advanceTo (tickTime s.herd k - guardFor s.herd k + backupNs s) s
  let rs := windowRecords s.herd k s.herd.s
  if rs.isEmpty ∨ s.herd.slipMax ≤ slipsOf s.herd k then s
  else broadcastSlip k 1 rs (bump 1 14 0 1 s)

def execBackupBroadcast (s : State) : Answer :=
  .next (if !inMode s .ready || !s.herd.isDeputy then s else backupSlip (nextTick s) s)

/-! ### The guard point and the fallback check (R47, R48, R50, R205) -/

/-- A WAITING or RUNNING queue whose list has a GUARD command that has not retired in this frame (R47, R115). -/
def behindGuard (x : Queue) : Bool := (x.state == 2 || x.state == 3) && !x.guardDone && x.list.any Cmd.guardFlag

/-- The FE's unfinished command waits on a retransmission. -/
def retransmits (s : State) (q : Nat) : Bool := s.fab.requests.any (fun r => r.owner == .queue .fe q && bitOf r.pkt.pflags 3)

/-- Queues of frame programs in engine and queue order that meet a test. -/
def frameQueuesWith (s : State) (ok : Queue → Bool) : List (Nat × Queue) :=
  s.eng.queues.filter (fun e => isFrameQueue s e.2 && ok e.2)

/-- The engine of a queue's table index. -/
def keyEngine (n : Nat) : Engine := (Engine.ofCode (n / 64)).getD .pe

def execGuardPoint (s : State) : Answer :=
  .next (if !inMode s .ready || !s.herd.inFrame then s
    else
      let k := nextTick s
      let s := advanceTo (tickTime s.herd k - guardFor s.herd k - guardU s.herd) s
      (frameQueuesWith s behindGuard).foldl (fun s e =>
        let en := keyEngine e.1
        let cause := if en = .fe ∧ retransmits s (e.1 % 64) = true then 9 else 1 + en.code
        requestSlip k cause en.code (e.1 % 64) s) s)

/-- CFG_GUARD fields (Table 8-5). -/
def fbEn (s : State) : Bool := bitOf s.regs.cfgGuard 16
def fbMarginNs (s : State) : Nat := bitsOf s.regs.cfgGuard 11 0 * 1000

/-- A FALLBACK request for a queue, counted under the class of its repeated task where it is sent (R49, R205, R206). -/
def requestFallback (k : Nat) (e : Nat × Queue) (s : State) : State :=
  let t := requestSlip k 7 (keyEngine e.1).code (e.1 % 64) s
  if s.herd.sent.length < t.herd.sent.length then bump 2 11 (guardScope e.2.ctx e.2.program (e.2.repeated.getD 0xFF)) 1 t else t

def execFallbackCheck (s : State) : Answer :=
  .next (if !inMode s .ready || !s.herd.inFrame || !fbEn s then s
    else
      let k := nextTick s
      let t := tickTime s.herd k - guardFor s.herd k - guardU s.herd - fbMarginNs s
      let s := advanceTo (max t (tickTime s.herd k - s.herd.period)) s
      (frameQueuesWith s (fun x => behindGuard x && x.repeated.isSome)).foldl (fun s e => requestFallback k e s) s)

/-! ### The master (R32, R40, R46, R58, R493) -/

/-- FRAME_CHANGE of a pending change: the guard it carries is the effective one. -/
def sendFrameChange (s : State) : State :=
  match s.herd.change with
  | some (k, p, g, m) =>
    broadcastHerd (herdOthers s) 7 (natLe 8 k ++ natLe 4 p ++ natLe 4 (max g (s.herd.gminUs * 1000)) ++ natLe 1 m) s
  | none => s

/-- SYNC to every module of the herd and of the plan, then FRAME_CHANGE while a change is pending. -/
def sendSync (s : State) : State :=
  let s := beginInterval s
  let before := s.herd
  let s := reportGuard before (updHerd (fun h => { h with gminUs := gminOf s, interval := intervalReg s }) s)
  let h := s.herd
  let body := natLe 8 h.t0 ++ natLe 8 h.k0 ++ natLe 4 h.period ++ natLe 4 (effGuard h) ++ natLe 8 h.s ++ natLe 1 h.slipMax
    ++ natLe 1 (intervalReg s) ++ natLe 2 h.deputyDev
  sendFrameChange (takeGuard (effGuard h) h.time (broadcastHerd (herdOthers s) 1 body s))

def execSyncInterval (s : State) : Answer :=
  .next (if !inHerd s || !s.herd.isMaster then s
    else
      let s := advanceTo s.herd.nextSync s
      updHerd (fun h => { h with nextSync := h.time + syncNs s }) (sendSync s))

/-- JOIN at a master: one kept per candidate; a lower EPOCH is answered with RESULT 0x02 and has no other effect. -/
def execJoin (m : HerdMsg) (s : State) : Answer :=
  .next (let (ok, s) := receive 8 m s
    if !ok ∨ s.herd.isMaster = false then s
    else if m.epoch < s.herd.epoch then sendHerd m.srcDev 9 (natLe 1 2) s
    else if s.herd.candidates.any (fun c => c.1 == m.srcDev) then s
    else updHerd (fun h => { h with candidates := h.candidates ++ [(m.srcDev, m.body.take 32)] }) (dropCopies m.srcDev s))

/-- One candidate answered, with a copy to the deputy; one admitted may become the herd's deputy (R58, R475). A JOIN tells no
strap: the master goes by the candidate's BELL in the plan (log entry 66). -/
def answerJoin (c : Nat × List Byte) (s : State) : State :=
  let ok := decide (c.2 = s.herd.planDigest.take 32)
  let ds := c.1 :: (if s.herd.deputyDev < 16384 then [s.herd.deputyDev] else [])
  let s := broadcastHerd ds.eraseDups 9 (natLe 1 (if ok then 0 else 1)) s
  let strapped := (s.herd.plan.map (fun p => p.modules.any (fun e => e.1 == c.1 && e.2.2 != 0))).getD false
  updHerd (fun h => { h with
    candidates := h.candidates.filter (fun e => decide (e.1 ≠ c.1))
    members := if ok && !h.members.contains c.1 then c.1 :: h.members else h.members
    deputyDev := if ok && strapped && h.deputyDev == 0xFFFF then c.1 else h.deputyDev }) s

/-- The candidates kept at the start of a frame, at most 64 in ascending device number (R493). -/
def answerJoins (s : State) : State :=
  if !s.herd.isMaster then s
  else ((s.herd.candidates.mergeSort (fun a b => decide (a.1 ≤ b.1))).take 64).foldl (fun s c => answerJoin c s) s

/-! ### Loss of the bellwether (R56 to R59) -/

/-- TAKEOVER: a higher EPOCH and its sender are adopted; the herd has no deputy until a SYNC names one. -/
def execTakeover (m : HerdMsg) (s : State) : Answer :=
  .next (let (ok, s) := receive 6 m s
    if !ok ∨ s.herd.isMaster = true then s
    else if s.herd.epoch < m.epoch ∨ s.herd.masterDev = devOf s then
      updHerd (fun h => { h with deputyDev := 0xFFFF, isDeputy := false }) (adoptMaster m.srcDev m.epoch s)
    else s)

/-- FRAME_CHANGE from the master: the change it announces replaces a pending one (R40). -/
def execFrameChange (m : HerdMsg) (s : State) : Answer :=
  .next (let (ok, s) := receive 7 m s
    if !ok ∨ s.herd.isMaster = true ∨ m.srcDev ≠ s.herd.masterDev ∨ msgField m 24 8 ≤ s.herd.k0 then s
    else updHerd (fun h => { h with change := some (msgField m 24 8, msgField m 32 4, msgField m 36 4, msgField m 40 1) }) s)

/-- The transport reports the master unreachable: neither route has an ACTIVE link, or a memory request has gone unanswered
on both (R56). -/
def masterUnreachable (s : State) : Bool :=
  noRoute s s.herd.masterDev 0 || s.fab.unreachable.contains s.herd.masterDev

/-- An event at herd time `t` can come before the next tick of READY. -/
def beforeTick (t : Nat) (s : State) : Bool := !inMode s .ready || decide (t < tickTime s.herd (nextTick s))

/-- Herd time at which MISS_LIMIT consecutive SYNCs have failed to arrive within 2 µs of their expected times. -/
def missedBy (s : State) : Nat := s.herd.lastOrigin + missLimit s * syncNs s + 2000

/-- MASTER_LOST: the deputy finds the master lost, raises EPOCH, broadcasts TAKEOVER and becomes master. A row sent before
either case of R56 holds does nothing (log entry 5). -/
def execMasterLost (s : State) : Answer :=
  .next (if !inHerd s || !s.herd.isDeputy || !(masterUnreachable s || beforeTick (missedBy s) s) then s
    else
      let s := if masterUnreachable s then s else advanceTo (missedBy s) s
      let old := s.herd.masterDev
      let last := s.herd.lastOrigin
      let i := 8000 * 2 ^ intervalReg s
      let s := updHerd (fun h => { h with
        epoch := (h.epoch + 1) % 2 ^ 32, isMaster := true, isDeputy := false, deputyDev := 0xFFFF, masterDev := devOf s
        setGuard := h.guard, bcastNs := none, holdover := false, samples := [], nextSync := (h.time / i + 1) * i }) s
      timeBroadcast (broadcastHerd (herdOthers s) 6 (natLe 8 last ++ natLe 2 old) s))

/-- Herd time at which the holdover limit since the last SYNC from any master is reached (R59). -/
def holdoverEnd (s : State) : Nat := (s.herd.lastT2 / 256).toNat + holdMs s * 1000000

/-- HOLDOVER_EXPIRY: no SYNC for the holdover limit: a follower leaves READY for HERD. -/
def execHoldoverExpiry (s : State) : Answer :=
  .next (if inMode s .ready && !s.herd.isMaster && beforeTick (holdoverEnd s) s then leaveToHerd (advanceTo (holdoverEnd s) s)
    else s)

end Sys2Proof.Machine
end

