-- ==== Sys2Proof/Machine/Tick.lean ====
section
/-! DEFINITION. The tick: the order of work of R406 to R408, with what other files place at it (frames, sticky widening,
deadlines, prompts, schedule signals and issues). -/
namespace Sys2Proof.Machine

def eachCtx (f : Nat → State → State) (s : State) : State := (s.contexts.map (·.1)).foldl (fun s c => f c s) s

def eachSlot (f : Nat → State → State) (s : State) : State := (s.streams.map (·.1)).foldl (fun s c => f c s) s

/-- Programs as (context, program). -/
def allPrograms (s : State) : List (Nat × Nat) := s.contexts.flatMap (fun c => c.2.programs.map (fun p => (c.1, p.1)))

def eachProgram (f : Nat → Nat → State → State) (s : State) : State :=
  (allPrograms s).foldl (fun s p => f p.1 p.2 s) s

/-! ### Prompts (R140, R214, R253) -/

/-- The next PROMPT_SUBMIT of a stream, in order. -/
def nextPrompt (slot done : Nat) (s : State) : State :=
  updStream slot (fun x => { x with
    promptToken := none
    prompt := ((s.cmds.filter (fun c => c.opcode == 0xC && c.phase == .running && c.slipOut.isNone
        && fieldAt c.desc 20 4 == x.number && c.order != done)).map (·.order)).min? }) s

/-- A PROMPT_SUBMIT ends. -/
def endPrompt (slot order status detail result : Nat) (s : State) : State :=
  nextPrompt slot order (finish order status detail result s)

/-- Tokens that the prompt work of a frame processes: how many is a free value, since the programs that do it are not the
manual's; after the last one a token is sampled, free as well. -/
def promptWork (slot : Nat) (s : State) : State :=
  match streamAt s slot with
  | none => s
  | some x =>
    match x.prompt.bind (cmdNo s) with
    | none => s
    | some c =>
      let n := fieldAt c.desc 32 4
      if x.promptToken.isSome ∨ x.kvLost ∨ x.kvPoison ∨ c.slipOut.isSome ∨ barrierHeld s x.ctx = true ∨ s.pwr.stopped then s
      else if x.ended then endPrompt slot c.order 0 0 (c.progress + 0xFFFFFFFF * 2 ^ 32) s
      else
        let (d, s) := takeNat (n - c.progress + 1) s
        match if d = 0 then (true, s) else prefillKv x.ctx slot (x.next + d) s with
        | (false, s) => s
        | (true, s) =>
          let s := if d = 0 then s
            else updStream slot (fun x => { x with next := x.next + d, fed := none })
              (updCmd c.order (fun y => { y with carried := some s.herd.frame, progress := y.progress + d }) s)
          if c.progress + d < n then s
          else
            let (t, s) := takeNat 0xFFFFFFFF s
            updStream slot (fun x => { x with promptToken := some t }) s

/-- The hand-over to a destination: sent once the prefill is complete; how it ends there is a free value until it ends. -/
def handOver (slot t : Nat) (c : FleosCmd) (x : Stream) (s : State) : State :=
  let dest := fieldAt c.desc 36 2
  let gone (s : State) : State := endPrompt slot c.order 7 dest (c.progress + t * 2 ^ 32) s
  if noRoute s dest 0 then gone s
  else if c.note = 0 then
    let send (pages : List (List Granule)) (s : State) : State :=
      emit (.handover dest (fieldAt c.desc 40 4) (((poolOf s x.ctx).map (·.layoutId)).getD 0) x.next t pages)
        (updCmd c.order (fun y => { y with note := 1 }) s)
    match x.dirSlot, poolOf s x.ctx with
    | some d, some p =>
      match allHome x.ctx p d x.kvLen s with
      | (true, s) => send ((List.range ((x.kvLen + 15) / 16)).map (fun n => pageParts p d n s)) s
      | (false, s) => s
    | _, _ => send [] s
  else
    let (k, s) := takeNat 5 s
    match k with
    | 0 => s
    | 1 => endPrompt slot c.order 0 0 (c.progress + t * 2 ^ 32) (updStream slot (fun x => { x with fed := none }) (freeKv slot s))
    | 2 => endPrompt slot c.order 3 (0x500 + 40) 0 s
    | 3 => endPrompt slot c.order 4 0x900 0 s
    | _ => gone s

/-- The sampled token of a finished prefill: its record here when the ring has room for two, or the hand-over. A token handed
over here goes before the prompts of the stream, and is dropped where the stream has ended (log entry 72). -/
def settleToken (slot : Nat) (s : State) : State :=
  match streamAt s slot with
  | none => s
  | some x =>
    match x.promptToken with
    | none => s
    | some t =>
      match if x.handFrom.isSome then none else x.prompt.bind (cmdNo s) with
      | none =>
        if x.ended then answerHandover slot s
        else if x.room < 2 then s
        else answerHandover slot (updStream slot (fun x => { x with promptToken := none }) (emitStep slot [(t, false)] false s))
      | some c =>
        if fieldAt c.desc 36 2 ≠ 0xFFFF then handOver slot t c x s
        else if x.ended then endPrompt slot c.order 0 0 (c.progress + 0xFFFFFFFF * 2 ^ 32) s
        else if x.room < 2 then s
        else endPrompt slot c.order 0 0 (c.progress + t * 2 ^ 32) (emitStep slot [(t, false)] false s)

/-! ### Step 1: changes due -/

/-- A frame change at K_E (R40), and an announced guard at its first tick (R46). -/
def tickSchedule (k : Nat) (s : State) : State :=
  let s := match s.herd.guardNext with
    | some (g, k0) => if k0 ≤ k then updHerd (fun h => { h with guard := g, guardNext := none }) s else s
    | none => s
  match s.herd.change with
  | some (ke, p, g, m) =>
    if ke ≤ k then
      updHerd (fun h => { h with
        t0 := tickTime h k, k0 := k, s := 0, period := p, guard := max g (h.gminUs * 1000), slipMax := m, change := none
        setGuard := g, guardNext := none }) s
      |> fun t => if t.herd.isMaster then reportGuard s.herd t else t
    else s
  | none => s

/-- One class at a tick: a period begins or begins again, or goes on, or ends (R202). -/
def stickyStep (y : Sticky) : Sticky :=
  let y' := { y with repeats := 0, topRung := 0, armed := false }
  if y.armed then { y' with left := y.stickyFrames, rung := if y.left = 0 then y.topRung else max y.rung y.topRung }
  else { y' with left := y.left - 1, rung := if y.left ≤ 1 then 0 else y.rung }

/-- Sticky periods start and end; entries and sticky frames are counted. -/
def tickSticky (ctx prog : Nat) (s : State) : State :=
  match progAt s ctx prog with
  | none => s
  | some p =>
    let s := p.classes.foldl (fun s c => if c.2.armed then bump 2 9 (guardScope ctx prog c.1) 1 s else s) s
    let cs := p.classes.map (fun (c : Nat × Sticky) => (c.1, stickyStep c.2))
    let s := cs.foldl (fun s c => if c.2.left ≠ 0 then bump 2 10 (guardScope ctx prog c.1) 1 s else s) s
    updProg ctx prog (fun p => { p with classes := cs }) s

/-- A stream occupies a slot of a batch of its context. -/
def inBatch (s : State) (x : Stream) : Bool :=
  ((ctxAt s x.ctx).map (fun c => (batchSlots c.batches).contains (x.number % 65536))).getD false

/-- A deadline not later than the tick: the final record by the SAMPLE of the frame, at the next tick, or at once: where the
stream is in no slot (R225) or a barrier is held (Table 13-4a). -/
def tickDeadline (now slot : Nat) (s : State) : State :=
  match streamAt s slot with
  | none => s
  | some x =>
    if x.ended ∨ x.params.deadline = 0 ∨ now < x.params.deadline then s
    else if x.deadlineDue ∨ inBatch s x = false ∨ barrierHeld s x.ctx = true then finalRecord slot 4 s
    else updStream slot (fun x => { x with deadlineDue := true }) s

/-- A stream under KV loss ends as by STREAM_ABORT; it keeps its slot (R241). -/
def tickLoss (slot : Nat) (s : State) : State :=
  match streamAt s slot with
  | none => s
  | some x =>
    if !x.kvLost || x.ended then s
    else
      let s := freeKv slot (finalRecord slot 5 s)
      match x.prompt with
      | some o => endPrompt slot o 0 1 ((((cmdNo s o).map (·.progress)).getD 0) + 0xFFFFFFFF * 2 ^ 32) s
      | none => s

/-- Slots of a hot pool that a tick empties (R273); a pool without cold experts keeps its experts for good (R271). -/
def tickPools (ctx : Nat) (s : State) : State :=
  updCtx ctx (fun c => { c with hotPools := c.hotPools.map (fun (h : Nat × HotPool) => (h.1, { h.2 with
    slots := h.2.slots.zipIdx.map (fun (x : HotSlot × Nat) => if h.2.coldBase ≠ 0 ∧ h.2.toEmpty.contains x.2 = true then { x.1 with expert := none } else x.1)
    toEmpty := [] })) }) s

/-- Step 1 of R406, in its order. -/
def tickChanges (k : Nat) (s : State) : State :=
  let s := tickPower (takeDues (some k) (tickSchedule k s))
  let s := eachCtx (fun c s => tickBarrier c k s) (eachProgram tickSticky s)
  let now := tickTime s.herd k
  settlePins (eachCtx tickPools (eachSlot (tickDeadline now) (eachSlot tickLoss s)))

/-! ### Step 2: marks, drafts and events (R110, R117, R220) -/

def tickClear (s : State) : State :=
  let s := eachProgram (fun c p s =>
    let s := updProg c p (fun p => { p with marks := [] }) s
    match progAt s c p with
    | some x => if x.isFrame then clearEvents x.eventBase x.eventCount s else s
    | none => s) s
  eachSlot (fun n s => updStream n (fun x => { x with drafts := [] }) s) s

/-! ### Step 3: schedule transfers (R294 to R296, R54) -/

/-- The transfer of an entry for a frame is still under way. -/
def entryBusy (s : State) (ctx prog i served : Nat) : Bool :=
  s.fab.xfers.any (fun x => x.use == .sched ctx prog i served && decide (x.round < 3))

/-- READY signals of transfers that serve the frame and have completed: at an early tick's repetition, of all of them. -/
def tickSignals (k ctx prog : Nat) (again : Bool) (s : State) : State :=
  match (progAt s ctx prog).bind (·.schedule) with
  | none => s
  | some sc =>
    let s := sc.issued.foldl (fun s e =>
      if e.2 = k ∧ entryBusy s ctx prog e.1 k = false
          ∧ (again ∨ s.fab.xfers.any (fun x => x.use == .sched ctx prog e.1 k && x.round == 3 && !x.silent) = true) then
        match sc.entries[e.1]? with
        | some y => signalEvent y.readyEvent s
        | none => s
      else s) s
    { s with fab := { s.fab with xfers := s.fab.xfers.filter (fun x => match x.use with
      | .sched c p _ served => !(c == ctx && p == prog && served == k && x.round == 3)
      | _ => true) } }

/-- The frame in which an entry serving a frame is issued lies before a tick, and its phase is the frame's. -/
def owed (sc : Schedule) (k k0 i served : Nat) (e : SchedEntry) : Bool :=
  decide (k0 ≤ served) && (served - k0) % sc.period == e.phase && decide (served < k + e.lead) && !sc.issued.contains (i, served)

/-- Entries issued at the tick itself: at k₀ and after a RESUME all that is owed for the next 15 frames (R296); else those
of the frame before whose FREE_EVENT did not come, as late (R295), and those held for a rewrite (R285). -/
def tickIssues (k ctx prog : Nat) (s : State) : State :=
  match progAt s ctx prog with
  | none => s
  | some p =>
    match p.schedule with
    | none => s
    | some sc =>
      let k0 := sc.k0.getD k
      let prime := sc.k0.isNone || sc.prime
      let s := updProg ctx prog (fun p => { p with schedule := p.schedule.map (fun x => { x with
        k0 := some k0, issued := x.issued.filter (fun e => decide (k ≤ e.2)), held := x.held.filter (fun e => decide (k ≤ e.2)) }) }) s
      if progHolding s p || s.pwr.stopped then s
      else
        let s := updProg ctx prog (fun p => { p with schedule := p.schedule.map (fun x => { x with prime := false }) }) s
        (List.range 15).foldl (fun s j =>
          sc.entries.zipIdx.foldl (fun s (e : SchedEntry × Nat) =>
            let served := k + j
            let kept := sc.held.contains (e.2, served)
            let late := !prime && !kept && decide (served + 1 = k + e.1.lead)
            if !owed sc k k0 e.2 served e.1 || !(prime || late || kept) then s
            else if !e.1.srcRemote && rewriting s ctx e.1.src (64 * e.1.length) then holdEntry ctx prog e.2 served s
            else startEntry ctx prog e.2 served e.1 (if late then bump 7 1 (ctx * 256 + prog) 1 s else s)) s) s

/-! ### Step 4: frame programs restart (R113, R134) -/

/-- Queues of frame programs that wait for the tick go to command 0; every frame queue begins its frame afresh. -/
def tickRestart (s : State) : State :=
  if s.pwr.stopped then s
  else
    { s with eng := { s.eng with queues := s.eng.queues.map (fun (e : Nat × Queue) =>
      if isFrameQueue s e.2 then
        let x := { e.2 with guardDone := false, repeated := none, missed := false }
        (e.1, if x.awaitTick ∧ (x.state = 2 ∨ x.state = 3) then
          { x with awaitTick := false, head := if x.state = 2 then 0 else x.head } else x)
      else e) } }

/-- Frames run by the open PROGRAM_STARTs of a program: ticks at which a queue of it is WAITING or RUNNING (Table 5-3). -/
def countFrames (s : State) : State :=
  if s.pwr.stopped then s
  else
    eachProgram (fun c p s => match progAt s c p with
      | some x =>
        if (progQueues s x).any (fun q => q.state == 2 || q.state == 3) then
          x.startCmds.foldl (fun s o => updCmd o (fun y => { y with progress := y.progress + 1 }) s) s
        else s
      | none => s) s

/-! ### The host die at a tick (R67, R84, R219) -/

/-- Records of room that a stream's next step needs, as far as a tick can tell: two, and its drafts (R84, R219; log entry 72). -/
def stepNeed (x : Stream) : Nat := 2 + (if x.params.draftSrc = 0 then 0 else x.params.draftMax)

/-- Host draft records of the streams in slots of the frame, and consumer words of those in slots of the next whose known
room falls short, or of those whose prompt's token waits for room. -/
def tickReads (s : State) : State :=
  eachSlot (fun n s => match streamAt s n with
    | none => s
    | some x =>
      let s := if x.params.draftSrc = 2 ∧ inBatch s x = true then readHostDraft n s else s
      if ((nextMembers s x.ctx).contains n = true ∧ x.room < stepNeed x) ∨ (x.promptToken.isSome ∧ x.room < 2) then
        readConsumer n s else s) s

/-! ### TICK (R406, R408, R54, R55) -/

/-- What a frame's end leaves on streams and windows. -/
def endFrame (k : Nat) (s : State) : State :=
  let s := eachSlot (fun n s => updStream n (fun x => { x with stepped := false, masked := false, kvPoison := false, hostDraft := none }) s) s
  updHerd (fun h => { h with
    records := h.records.filter (fun r => decide (k ≤ r.frame)), decided := h.decided.filter (fun d => decide (k ≤ d.1))
    sent := h.sent.filter (fun r => decide (k ≤ r.frame)) }) s

/-- Steps 2 to 4, then the doorbell reads. -/
def tickAgain (k : Nat) (again : Bool) (s : State) : State :=
  let s := updHerd (fun h => { h with tickAt := tickTime h k }) s
  let s := eachProgram (fun c p s => tickSignals k c p again s) (tickClear s)
  let s := tickRestart s
  if portUp s then readAllDoorbells s else s

/-- Frame-bound work of the frame that ends is still unfinished: the running command of each such queue goes on, the rest is
abandoned, and the prompts whose work it carried are owed SLIPPED_OUT (R55). -/
def abandonFrame (s : State) : State :=
  let hit := unfinishedCtxs s
  settleAll (owePrompts (fun c => carriedBy s.herd.frame c && hit.contains c.ctx) s.herd.frame (abandonFrames false s))

/-- The work of tick `k` in READY. -/
def tickWork (k : Nat) (s : State) : State :=
  let s := if s.herd.inFrame then abandonFrame s else s
  let s := updHerd (fun h => { h with frame := k, inFrame := true }) s
  let s := endFrame k (tickChanges k (breakSpan s))
  let s := tickReads (tickAgain k false s)
  let s := if s.pwr.stopped then s else eachCtx (fun c s => tickReturns c (retryHandovers c s)) s
  let s := countFrames (eachProgram (tickIssues k) s)
  answerJoins (eachSlot settleToken (eachSlot promptWork s))

/-- Admission at the tick: READY, HERD_JOIN completes with its DIFF_ID, HERD_STATE joined is posted (R476). -/
def enterReady (s : State) : State :=
  let s := breakSpan { s with boot := { s.boot with mode := .ready } }
  let s := match s.herd.joinCmd with
    | some o => finishOk o (((cmdNo s o).map (·.note)).getD 0) s
    | none => s
  postEvent 0 8 0 0xFFFF (natLe 1 1) (updHerd (fun h => { h with admitted := false, rejoining := false, joinCmd := none, joinSent := none }) s)

/-- What a master or deputy does in the guard window of tick `k` before the tick: the decision, and the deputy's backup where
its time comes first. -/
def windowWork (k : Nat) (s : State) : State :=
  if !inMode s .ready then s
  else if s.herd.isMaster then decideWindow k (advanceTo (tickTime s.herd k - guardFor s.herd k) s)
  else if s.herd.isDeputy && decide (backupNs s ≤ guardFor s.herd k) then backupSlip k s
  else s

/-- A tick occurs: in READY with all its work; in HERD, once a SYNC has come, with its pulse and doorbell reads only. A
master or deputy first does what the tick's window asks for, and a held tick does not occur. -/
def doTick (s : State) : State :=
  let k := nextTick s
  let d := windowWork k s
  if d.herd.s ≠ s.herd.s then d
  else
    let s := emit (.syncPulse k) (advanceTo (tickTime d.herd k) d)
    let s := if s.herd.admitted then enterReady s else s
    if inMode s .ready then
      if s.herd.diverged then tickAgain k true (updHerd (fun h => { h with diverged := false }) s) else tickWork k s
    else
      let s := tickSchedule k (updHerd (fun h => { h with frame := k }) s)
      if portUp s then readAllDoorbells s else s

def execTick (stores : List HostStore) (s : State) : Answer :=
  .next (let s := hostStores stores s
    if inMode s .ready || (inMode s .herd && s.herd.heard) then doTick s else s)

end Sys2Proof.Machine
end

