-- ==== Sys2Proof/Machine/Join.lean ====
section
/-! DEFINITION. Joining and leaving the herd: the installation plan, difference records, HERD_JOIN, HERD_LEAVE, FRAME_POLICY
and formation (R143, R144, R372 to R374, R472 to R477). -/
namespace Sys2Proof.Machine

/-! ### The plan (R472, R473, R372) -/

/-- A plan without defect, as the module holds it. -/
def readPlan (s : State) (b : List Byte) : Plan :=
  let own := ((List.range (planCount b)).find? (fun i => decide (fieldAt (planEntry b i) 0 2 % 16384 = devOf s))).getD 0
  let lo := fieldAt (planEntry b own) 8 8
  { digest := sha384 b, bellwether := fieldAt b 8 2 % 16384, deputy := fieldAt b 10 2
    modules := (List.range (planCount b)).map (fun i =>
      let e := planEntry b i
      (fieldAt e 0 2 % 16384, fieldAt e 2 1, fieldAt e 3 1))
    links := (List.range 64).map (fun n => (fieldAt b (lo + 8 * n) 1, fieldAt b (lo + 8 * n + 1) 1, fieldAt b (lo + 8 * n + 4) 4)) }

/-! ### Differences (R18, R28, R373, R374) -/

/-- A difference: KIND, LINK and its record of Table 15-8. -/
def diffRecord (kind link ep fp e f : Nat) : Nat × Nat × List Byte :=
  (kind, link, natLe 1 kind ++ natLe 1 link ++ natLe 1 ep ++ natLe 1 fp ++ natLe 4 e ++ natLe 4 f ++ natLe 4 0)

/-- The difference of one link against its entry. -/
def linkDiff (s : State) (n : Nat) (e : Nat × Nat × Nat) : List (Nat × Nat × List Byte) :=
  let k := linkOf s n
  if e.1 ≠ 0 ∧ k.state ≠ 2 then [diffRecord 1 n e.2.1 0 e.2.2 0]
  else if e.1 = 0 ∧ k.state = 2 then [diffRecord 2 n 0 k.peerPort 0 k.peerId]
  else if k.state = 2 ∧ (k.peerKind, k.peerPort, k.peerId) ≠ e then [diffRecord 3 n e.2.1 k.peerPort e.2.2 k.peerId]
  else []

/-- The current difference records against a plan. -/
def planDiffs (s : State) (p : Plan) : List (Nat × Nat × List Byte) :=
  let own := (p.modules.find? (fun e => e.1 == devOf s)).map (·.2)
  p.links.zipIdx.flatMap (fun e => linkDiff s e.2 e.1)
  ++ (match own with
    | some (role, bell) =>
      (if role = s.boot.straps.role then [] else [diffRecord 4 0xFF 0 0 role s.boot.straps.role])
      ++ (if bell = s.boot.straps.bell then [] else [diffRecord 5 0xFF 0 0 bell s.boot.straps.bell])
    | none => [])

/-- DIFF_ID; 0 for an empty set. -/
def diffId (ds : List (Nat × Nat × List Byte)) : Nat :=
  if ds.isEmpty then 0
  else
    let v := leNat ((sha384 (ds.flatMap (fun d => d.2.2))).take 4)
    if v = 0 then 1 else v

/-- EXTRA and WRONG_PEER links are disabled. -/
def disableDiffs (ds : List (Nat × Nat × List Byte)) (s : State) : State :=
  ds.foldl (fun s d =>
    if d.1 = 2 ∨ d.1 = 3 then
      leaveActive d.2.1 (fun k => { Link.reset with
        state := 3, lanes := k.lanes, trainedWidth := k.trainedWidth, lrev := k.lrev, disReason := d.1 + 3
        peerKind := k.peerKind, peerPort := k.peerPort, peerId := k.peerId, admitted := k.admitted }) s
    else s) s

/-! ### HERD_JOIN (R143, R474) -/

/-- The module enters HERD and seeks a master. -/
def enterHerd (order did : Nat) (s : State) : State :=
  let s := updCmd order (fun c => { c with note := did }) (flushCache s)
  updHerd (fun h => { seekAfresh h with joinCmd := some order, enteredHerd := h.time, rejoining := false })
    (breakSpan { s with boot := { s.boot with mode := .herd } })

/-- HERD_JOIN; its plan has passed check 3 (namedDefect). -/
def execHerdJoin (src : CmdSrc) (s : State) : Answer :=
  runCmd 0x11 src (fun c s =>
    let f (off len : Nat) : Nat := fieldAt c.desc off len
    let a := f 24 8
    let n := f 32 4
    if s.boot.straps.linksplit = 6 then finishNoRes c.order 0xB s
    else if hostBad s a n then finishPoisoned c a s
    else
      let p := readPlan s (hostBytes s a n)
      let ds := planDiffs s p
      let did := diffId ds
      let s := updHerd (fun h => { h with plan := some p, planDigest := p.digest }) s
      if ds ≠ [] ∧ (f 17 1 = 0 ∨ f 20 4 ≠ did) then finish c.order 3 (0x700 + if f 17 1 = 0 then 17 else 20) did s
      else enterHerd c.order did (disableDiffs ds s)) noAgain s

/-! ### Back to TRAINED (R144, R147, R476, R471) -/

/-- The herd left: what was due at a tick happens now, and nothing of the herd is kept but the counter and the plan. -/
def leaveHerd (s : State) : State :=
  let s := if inMode s .ready then leaveFrames s else s
  let s := match s.herd.joinCmd with
    | some o => finishNoRes o 0xB s
    | none => s
  let s := updHerd (fun h => { seekAfresh h with
    joinCmd := none, rejoining := false, masterDev := 0, frame := 0, gminUs := 0, bcastNs := none, pathDelay := [] }) s
  let s := breakSpan { s with boot := { s.boot with mode := .trained }, pwr := { s.pwr with clock := 0 } }
  eachCtx (fun c s => raiseBarrier c none (releaseBarrier c s)) (applyCaps (takeDues none s))

/-- A frame program runs: one of its queues is WAITING or RUNNING. -/
def frameRuns (s : State) : Bool := s.eng.queues.any (fun e => isFrameQueue s e.2 && (e.2.state == 2 || e.2.state == 3))

/-- Every program stopped as by PROGRAM_STOP MODE 0x00, once none of its queues runs a command. -/
def stopAll (s : State) : State :=
  eachProgram (fun c n s => match progAt s c n with
    | some p => settleProgram c n (stopProgram c n p s)
    | none => s) s

/-- Running prompt commands are owed SLIPPED_OUT. -/
def slipPrompts (s : State) : State :=
  settleAll (owePrompts (fun _ => true) s.herd.frame s)

/-- Stop requests to every queue. -/
def requestAll (s : State) : State :=
  eachProgram (fun c n s => match progAt s c n with
    | some p => requestStop p s
    | none => s) s

def anyRunning (s : State) : Bool := s.eng.queues.any (fun e => e.2.state == 3)

/-- HERD_LEAVE: MODE 0x00 is refused while a frame program runs; MODE 0x01 stops every program first, and its row again
leaves once no queue runs a command. -/
def execHerdLeave (src : CmdSrc) (s : State) : Answer :=
  let leave (c : FleosCmd) (s : State) : State := finishOk c.order 0 (leaveHerd (slipPrompts s))
  let go (c : FleosCmd) (s : State) : State :=
    if fieldAt c.desc 17 1 = 0 then (if frameRuns s then finishNoRes c.order 0xA s else leave c s)
    else
      let s := requestAll s
      if anyRunning s then s else leave c (stopAll s)
  runCmd 0x12 src go go s

/-! ### FRAME_POLICY (R40) -/

def execFramePolicy (src : CmdSrc) (s : State) : Answer :=
  runCmd 0x13 src (fun c s =>
    if !s.herd.isMaster then finishNoRes c.order 0xC s
    else
      let (p, g, m) := policySettings s c.desc
      let k := max (nextTick s) (ceilTick s.herd (s.herd.time + 32 * syncNs s))
      finishOk c.order k (sendFrameChange (updHerd (fun h => { h with change := some (k, p, g, m) }) s))) noAgain s

/-! ### Candidates (R475 to R477) -/

/-- A candidate that the herd refuses, or that finds none in time, is TRAINED again. -/
def backToTrained (status detail : Nat) (s : State) : State :=
  let j := s.herd.joinCmd
  let s := leaveHerd (updHerd (fun h => { h with joinCmd := none }) s)
  match j with
  | some o => finish o status detail 0 s
  | none => s

/-- JOIN_ACK at the candidate. -/
def execJoinAck (m : HerdMsg) (s : State) : Answer :=
  .next (let (ok, s) := receive 9 m s
    if !ok ∨ inMode s .herd = false ∨ s.herd.joinSent = none ∨ s.herd.admitted = true ∨ m.srcDev ≠ s.herd.masterDev then s
    else
      match msgField m 24 1 with
      | 0 => updHerd (fun h => { h with admitted := true }) s
      | 1 =>
        if s.herd.rejoining then postEvent 0 8 0 0xFFFF (natLe 1 2) (backToTrained 0 0 s) else backToTrained 3 (0x700 + 24) s
      | 2 => updHerd (fun h => { h with joinSent := none }) s
      | _ => bump 1 22 0 1 s)

/-- JOIN_RESEND: every 1 ms until JOIN_ACK. -/
def execJoinResend (s : State) : Answer :=
  .next (if inMode s .herd && s.herd.joinSent.isSome && !s.herd.admitted then sendJoin s else s)

/-- HERD_JOIN_TIMEOUT: 1 s without lock, or 1 s from lock without JOIN_ACK, of a HERD_JOIN. -/
def execHerdJoinTimeout (s : State) : Answer :=
  .next (if inMode s .herd && s.herd.joinCmd.isSome && !s.herd.admitted then
      backToTrained 8 (if s.herd.locked then s.herd.masterDev else 0xFFFFFFFF) s
    else s)

/-- HERD_FORM: 10 ms without a SYNC of any EPOCH at a strapped bellwether: a new herd, READY at once, tick 0 and its work
(R474). -/
def execHerdForm (s : State) : Answer :=
  .next (if inMode s .herd && s.boot.straps.bell == 1 && !s.herd.heard && s.herd.joinCmd.isSome then
      let s := stepTo 0 s
      let r := s.regs.hrtFrame
      let s := updHerd (fun h => { h with
        epoch := 1, masterDev := devOf s, isMaster := true, locked := true, heard := true, t0 := 0, k0 := 0, s := 0
        period := periodReg r * 1000, setGuard := guardReg r * 1000, slipMax := slipMaxReg r, interval := intervalReg s
        nextSync := 0, slipRun := (0, 0) }) s
      let s := reportGuard { s.herd with isMaster := false }
        (updHerd (fun h => { h with gminUs := gminOf s, guard := max h.setGuard (gminOf s * 1000) }) s)
      tickWork 0 (enterReady (emit (.syncPulse 0) s))
    else s)

end Sys2Proof.Machine
end

