-- ==== Sys2Proof/Machine/Reset.lean ====
section
/-! DEFINITION. The module reset, for every cause of R458, and the reset of single domains (file 20; R421, R423, R425, R480). -/
namespace Sys2Proof.Machine

/-! ### Module reset (R458, R480) -/

/-- The last 64 records stay, numbering goes on, and FATAL_PRIOR is judged afresh (R423, R425). -/
def resetErrors (e : Errors) : Errors :=
  let kept := e.records.take 64
  { e with records := kept, fatalPrior := kept.any (fun r => r.severity == 2), spanBreaks := e.spanBreaks + 1 }

/-- Power and cooling afresh: levels of pins, alerts and sensors stand as they are, and THERMAL_RESET stays until the input
goes away (R447). -/
def resetPower (thermal : Bool) (p : Power) : Power :=
  { Power.reset with
    brake := p.brake, uv := p.uv, alerts := p.alerts, forced := !p.alerts.isEmpty, temps := p.temps
    n := if p.alerts.isEmpty then 0 else 56, thermalReset := p.thermalReset || thermal }

/-- Start-up afresh. Causes asserted together show the lowest code (Table 22-3); while PERST_N is low no domain is released. -/
def resetBoot (cause : Nat) (b : Boot) : Boot :=
  { b with
    mode := .rom, hold := 0, training := false, lastReset := if b.perstLow then min b.lastReset cause else cause
    released := if b.perstLow then 0 else 2, thermalHold := b.thermalHold || cause == 3
    faultHeld := b.faultHeld || cause == 2 || cause == 3, ready := false, bar := 0, vfEnable := false
    numVfs := 0, cablesOff := [] }

/-- A module reset: every domain asserted at once. Straps, fuses, host memory, the records kept and what the pins show stay;
everything else takes its reset value, accepted commands among it (R90 completes them). Package memory is not stated to keep
its contents: log entry 31. -/
def resetAll (cause : Nat) (s : State) : State :=
  if inMode s .off then s
  else
    faultEdge s { s with
      boot := resetBoot cause s.boot, regs := Regs.reset, fns := List.replicate 17 FnState.reset, cmds := []
      host := { s.host with held := [] }
      contexts := [], streams := [], slotUses := [], due := []
      eng := { queues := [], tasks := [], fenced := [], held := [], events := [] }
      mem := MemState.reset, links := List.replicate 64 Link.reset, fab := Fabric.reset, herd := Herd.reset
      errs := resetErrors s.errs, pwr := resetPower (cause == 3) s.pwr, mgt := Mgt.reset, counters := []
      tally := Tally.reset }

/-- A fatal error: its record, FAULT_N, and a module reset (R421). -/
def fatalError (e : ErrRec) (s : State) : State :=
  let s := recordErr { e with severity := 2 } s
  resetAll 2 (faultEdge s { s with boot := { s.boot with faultHeld := true } })

/-! ### Single domains (R462) -/

/-- The state that one domain of D2 to D8 holds, at its reset values. Debug is unlocked only with no context, and none is
created while it is, so no queue or stream is bound. -/
def resetDomain (i : Nat) (s : State) : State :=
  match i with
  | 0 =>
    { s with
      mgt := { s.mgt with ports := Mgt.reset.ports, challenge := none }
      cmds := s.cmds.filter (fun c => match c.src with | .mgt _ => false | .ring _ _ _ => true) }
  | 1 =>
    breakSpan { s with
      herd := { Herd.reset with plan := s.herd.plan, planDigest := s.herd.planDigest }
      pwr := resetPower false s.pwr }
  | 2 => { s with eng := { s.eng with queues := [], tasks := [], held := [], events := [] }, mem := { s.mem with cache := [] } }
  | 3 =>
    { s with mem := { s.mem with stackStates := s.mem.stackStates.map (fun k => { StackState.reset with spares := k.spares }) } }
  | 4 => { s with links := List.replicate 64 { Link.reset with state := 4 }, fab := Fabric.reset
                  boot := { s.boot with cablesOff := [] } }
  | 5 => { s with eng := { s.eng with tasks := [] } }
  | _ =>
    { s with
      fns := s.fns.map (fun f => { f with
        rings := [], refused := [], seen := [], walkFailed := [], walking := false, walkDue := true, ignored := [], eventsLost := 0 })
      cmds := s.cmds.filter (fun c => match c.src with | .ring _ _ _ => false | .mgt _ => true) }

/-- The lowest domain held, as its bit; 7 for none. -/
def lowestHeld (hold : Nat) : Nat := ((List.range 7).find? (fun i => bitOf hold i)).getD 7

/-- The domains that may be released: those before the lowest held. -/
def releaseLimit (s : State) : Nat := 2 + lowestHeld s.regs.dbgHold

/-- HOLD is an end of the release order: every domain after a held one is held too. -/
def holdOrdered (hold : Nat) : Bool := (List.range 6).all (fun i => !bitOf hold i || bitOf hold (i + 1))

end Sys2Proof.Machine
end

