-- ==== Sys2Proof/Machine/Stacks.lean ====
section
/-! DEFINITION. Stack controllers, the Store's scrub and the package mesh: refresh, temperature and throttle, flits of the
mesh (R307, R348 to R352, R410, R411). -/
namespace Sys2Proof.Machine

/-- The stack's controller runs: D5 is released and its base die is clocked (R348, R442, R458). -/
def stackRuns (s : State) (n : Nat) : Bool := decide (6 ≤ s.boot.released) && !(stackAt s n).selfRefresh

/-! ### Refresh (R348) -/

/-- A bank's refresh falls due: it issues when the bank is idle, waits at most 8 intervals, and issues ahead of every
request at that limit, which is counted. -/
def execRefresh (stack pc bank : Nat) (idle : Bool) (s : State) : Answer :=
  .next (if !stackRuns s stack then s
    else
      let key := pc * 64 + bank
      let n := tabNat (stackAt s stack).postponed key
      let put (v : Nat) (s : State) : State := updStack stack (fun k => { k with postponed := tabPut k.postponed key v }) s
      if idle then put 0 s else if n < 8 then put (n + 1) s else bump 10 4 stack 1 (put 0 s))

/-! ### Temperature and throttle (R349, R351) -/

def thermThr (s : State) : Nat := bitsOf s.regs.memTherm 7 0
def thermStep (s : State) : Nat := bitsOf s.regs.memTherm 11 8
def thermHyst (s : State) : Nat := bitsOf s.regs.memTherm 15 12
def thermCrit (s : State) : Nat := bitsOf s.regs.memTherm 23 16

/-- The target step of a reading. -/
def targetStep (s : State) (t : Nat) : Nat :=
  if t < thermThr s then 0 else min 3 (1 + (t - thermThr s) / thermStep s)

/-- The reading is below the falling threshold of a step. -/
def belowFall (s : State) (step t : Nat) : Bool :=
  decide (step ≠ 0) && decide (t + thermHyst s < thermThr s + (step - 1) * thermStep s)

/-- STACK_TEMP_READING, every 10 µs: the step rises to its target, a critical reading holds step 3 and is recorded once per
crossing, and the time in the step of the interval is counted. -/
def execStackTempReading (stack : Nat) (temps : List Nat) (s : State) : Answer :=
  .next (if !stackRuns s stack then s
    else
      let t := temps.foldl max 0
      let k := stackAt s stack
      let crit := decide (thermCrit s ≤ t)
      let step := if crit then 3 else max k.step (targetStep s t)
      let high := max k.highest t
      let s := setCounter 10 15 stack high (bump 10 (11 + k.step) stack 10000 s)
      let s := updStack stack (fun k => { k with
        step, hottest := t, highest := high, critical := crit, cool := belowFall s step t }) s
      noteReasons (if crit && !k.critical then
        recordErr { blankErr 10 with unitKind := 2, unit := stack, detail := t } s else s))

/-- STACK_THROTTLE_FALL: after 100 µs of readings below the threshold the step falls by one. -/
def execStackThrottleFall (stack : Nat) (s : State) : Answer :=
  .next (if !stackRuns s stack || !(stackAt s stack).cool then s
    else
      noteReasons (updStack stack (fun k => { k with
        step := k.step - 1, cool := belowFall s (k.step - 1) k.hottest }) s))

/-! ### SRAM arrays (R307, R410, Table 18-4) -/

/-- An uncorrectable word found in the Store. In cache mode the operand is the T1 address that the granule's line holds: a
clean granule is read again from T1, a dirty one is written back as poisoned with a record. -/
def storeBad (s : State) (a : Nat) : State :=
  if cacheMode s then
    match lineAt s (bitsOf a 29 11) (bitsOf a 40 30) with
    | none => s
    | some l =>
      let i := a / 64 % 32
      let put (g : Granule) (s : State) : State := { s with mem := { s.mem with cache := s.mem.cache.map (fun x =>
        if x.set == l.set && x.tag == l.tag then
          { x with granules := x.granules.set i g, dirty := x.dirty.filter (fun d => decide (d ≠ i)) } else x) } }
      if l.dirty.contains i then
        let s := bump 8 2 0 1 (t1Put a poisonGran (put poisonGran s))
        recordErr { blankErr 11 with unitKind := 3, addr := a / 64 * 64 } s
      else put (t1Gran s a) s
  else applyMemErr s { addr := a, kind := .sramUe }

def arrayErr (kind unit detail : Nat) (s : State) : State :=
  recordErr { blankErr 6 with unitKind := kind, unit, detail } s

/-- The record of an array of a core: its number within its die (Table 18-6). -/
def coreArrayErr (e : Engine) (unit detail : Nat) (s : State) : State :=
  match e with
  | .ge => arrayErr 2 (unit % 1600) detail s
  | _ => arrayErr 1 (unit % 5120) detail s

def poisonTile (t : Tile) : Tile := { t with cols := t.cols.map (fun c => c.map (fun _ => poisonGran)) }

/-- A weight bank: the W operand of the MMA that takes it next is poisoned. -/
def bankBad (e : Engine) (unit : Nat) (s : State) : State :=
  match taskAt s e unit with
  | none => s
  | some t => coreArrayErr e unit 3 (setTask (match t.ahead with
    | some a => { t with ahead := some (a.1, poisonTile a.2) }
    | none => { t with tile := t.tile.map poisonTile }) s)

/-- The instruction buffer: the instruction is fetched again from memory; where that fails too it is a tile defect, of a row
that Table 6-11 does not name: the row is a free value (log entry 75). -/
def bufferBad (e : Engine) (unit : Nat) (s : State) : State :=
  match taskAt s e unit with
  | none => s
  | some t =>
    match t.run with
    | none => s
    | some r =>
      let s := coreArrayErr e unit 4 s
      if t.refetched = some t.pc then
        let (row, s) := takeNat 8 s
        tileFault t t.pc (row + 1) s
      else
        let (t, s) := fetchCode { t with code := [], refetched := some t.pc } r s
        setTask t s

/-- A directory set of a stack: a drop notice to each fold neighbour, which drops every copy from this home, and the set's
entries are freed. The acknowledgements have no row of their own, and the writes that wait for them go on here (log entry
75). -/
def directoryBad (a : Nat) (s : State) : State :=
  let s := arrayErr 2 (stackPlace s a).1 6 s
  let s := (neighbours s).foldl (fun s d => emit (.dropNotice d) s) s
  let gone := (s.fab.directory.filter (fun d => dirSet s d.addr == dirSet s a)).map (·.addr)
  freeRegions (gone.foldl (fun s a => freeEntry a s) s)

/-- An uncorrectable word, contained by the place it was found in (Table 18-4). -/
def scrubBad (s : State) (x : ArrayUe) : State :=
  match x with
  | .memory a => storeBad s a
  | .weightBank e u => bankBad e u s
  | .instrBuffer e u => bufferBad e u s
  | .foldCache home a =>
    arrayErr 4 (a / 2048 % 8) 5 { s with fab := { s.fab with
      copies := s.fab.copies.filter (fun c => !(c.home == home && c.addr == a / 64 * 64)) } }
  | .directorySet a => directoryBad a s
  | .replayBuffer l => linkGoesDown l (arrayErr 7 l 7 s)
  | .control c => fatalError { blankErr 30 with unitKind := 5, detail := c } s

/-- STORE_SCRUB: words of the Store corrected are written back and counted by die; uncorrectable words, of whatever array, are
contained. -/
def execStoreScrub (corrected : List Nat) (bad : List ArrayUe) (s : State) : Answer :=
  .next (if s.boot.released < 5 ∨ s.pwr.stopped then s
    else
      let s := corrected.foldl (fun s a => if placeOf a = .store then countCorrected a s else s) s
      bad.foldl scrubBad s)

/-! ### Mesh flits (R411) -/

/-- One byte through the CRC-16 of polynomial 0x1021, the most significant bit first (log entry 32). -/
def crc16Byte (c : Nat) (b : Byte) : Nat :=
  (List.range 8).foldl (fun c _ => if 32768 ≤ c then (c * 2 % 65536) ^^^ 0x1021 else c * 2) (c ^^^ (b.toNat * 256))

def crc16 (bs : List Byte) : Nat := bs.foldl crc16Byte 0

/-- Position of the die that holds a local address (Table 1-5). -/
def placeInMesh (s : State) (a : Nat) : Option (Nat × Nat) :=
  match placeOf a with
  | .t1 => diePlace .base (stackPlace s a).1
  | .store => diePlace .store ((a - 0x20000000000) / 2 ^ 30)
  | .core =>
    if a < 0x2C000000000 then diePlace .compute ((a - 0x28000000000) / 0x20000000)
    else diePlace .base ((a - 0x2C000000000) / 0x10000000)
  | .hole => none

/-- A packet that carries a granule of this address may cross the edge on its fixed route (R13). -/
def crosses (s : State) (edge a : Nat) : Bool := ((placeInMesh s a).map (edgeToward edge)).getD false

/-- Four attempts of a flit have failed: what it carries arrives poisoned, a MESH_HOP record is written, and 16 such
failures of one edge within 1 ms are fatal. -/
def meshExhausted (edge : Nat) (granules : List Nat) (s : State) : State :=
  let s := granules.foldl (fun s a => storeGran a poisonGran s) s
  let s := recordErr { blankErr 13 with detail := edge } s
  let (n, t) := (tabGet s.mem.meshFails edge).getD (0, s.herd.time)
  let (n, t) := if s.herd.time - t < 1000000 then (n + 1, t) else (1, s.herd.time)
  let s := { s with mem := { s.mem with meshFails := tabSet s.mem.meshFails edge (n, t) } }
  if 16 ≤ n then fatalError { blankErr 31 with detail := edge } s else s

/-- MESH_FLIT_RECEIVE: a flit at a receiving port of an edge; `granules` are the local addresses of those it carries, of which
only those whose route crosses the edge can be in it (R13). A good flit is delivered: what it asks for is another command's. -/
def execMeshFlitReceive (edge : Nat) (data : List Byte) (crc : Nat) (granules : List Nat) (s : State) : Answer :=
  .next (if s.boot.released < 5 ∨ (edgeEnds edge).isNone then s
    else
      let tries (n : Nat) (s : State) : State := { s with mem := { s.mem with meshTries := tabPut s.mem.meshTries edge n } }
      let n := tabNat s.mem.meshTries edge
      if crc16 data = crc then tries 0 s
      else if n + 1 < 4 then tries (n + 1) s
      else meshExhausted edge (granules.filter (crosses s edge)) (tries 0 s))

end Sys2Proof.Machine
end

