-- ==== Sys2Proof/Machine/Flags.lean ====
section
/-! DEFINITION. The registers as reads show them: status fields computed from the state, and the register map (file 24;
Tables 3-12 to 3-14, 8-5, 14-7 to 14-10, 15-9 to 15-11, 16-12, 18-8, 19-8 to 19-13, 20-6, 21-2, 23-9 to 23-11). -/
namespace Sys2Proof.Machine

/-! ### Status registers -/

/-- STATE of CFG_STATE (Table 21-2). -/
def stateCode (m : Mode) : Nat :=
  match m with
  | .off => 0
  | .rom => 1
  | .trained => 2
  | .herd => 3
  | .ready => 4
  | .recovery => 5

/-- LOCKED: herd time locked, or master. -/
def lockedFlag (s : State) : Bool := s.herd.locked || s.herd.isMaster

def cfgId (s : State) : Nat := 0x7C41D2E9 * 2 ^ 32 + s.fuse.stepping * 2 ^ 16 + 0x1640

def cfgState (s : State) : Nat :=
  s.boot.lastReset * 2 ^ 20 + s.boot.hold * 2 ^ 8 + bitNat (lockedFlag s) * 16 + bitNat s.boot.training * 8
  + stateCode s.boot.mode

def cfgErrStatus (s : State) : Nat := bitNat s.errs.fatalPrior * 2 ^ 48 + s.errs.overwritten * 2 ^ 32 + s.errs.last

/-- IDE streams in the Secure state. -/
def ideSecure (s : State) : Nat := (s.mgt.ide.filter (fun k => k.secure)).length

/-- Challenges are refused after 8 failures (R514). -/
def debugRefusing (s : State) : Bool := decide (8 ≤ s.mgt.failures)

def secStatus (s : State) : Nat :=
  ideSecure s * 2 ^ 16 + s.mgt.scope * 2 ^ 8 + bitNat (debugRefusing s) * 16 + bitNat (s.boot.hold == 1) * 8
  + bitNat s.mgt.unlocked * 4 + 2 + bitNat s.regs.locked

def ringCtrl (f : FnState) : Nat := bitNat f.walking * 2 + bitNat f.enable

/-- HRT_EFFECTIVE: the herd's values in HERD and READY, else the module's own (R523). -/
def hrtEffective (s : State) : Nat :=
  if inHerd s then
    s.herd.gminUs * 2 ^ 48 + s.herd.slipMax * 2 ^ 32 + s.herd.guard / 1000 * 2 ^ 16 + s.herd.period / 1000
  else s.regs.hrtFrame

def hrtStatus (s : State) : Nat :=
  s.herd.epoch * 2 ^ 32 + bitNat s.herd.isDeputy * 2 ^ 17 + bitNat s.herd.isMaster * 2 ^ 16
  + (if s.herd.isMaster then devOf s else s.herd.masterDev)

/-- ACTIVE: bit i for reason code i + 1. -/
def activeMask (s : State) : Nat :=
  (List.range 8).foldl (fun m i => if reasonHolds s (i + 1) then m + 2 ^ i else m) 0

def pwrStatus (s : State) : Nat :=
  s.pwr.pIn * 2 ^ 48 + s.pwr.vIn * 2 ^ 32 + activeMask s * 2 ^ 24 + s.pwr.clock * 2 ^ 16
  + bitNat s.pwr.thermalReset * 2 ^ 9 + bitNat s.pwr.stopped * 2 ^ 8 + s.pwr.n

/-- A stack with a failed pseudo-channel. -/
def stackDegraded (s : State) (n : Nat) : Bool := s.mem.failed.any (fun c => c / 64 == n)

def memHealth (s : State) : Nat :=
  bitNat (s.mem.stackStates.any (fun k => decide (1 ≤ k.step))) * 2 ^ 20
  + (List.range 20).foldl (fun m i => if stackDegraded s i then m + 2 ^ i else m) 0

def lnkStraps (s : State) : Nat :=
  s.boot.straps.bell * 2 ^ 19 + s.boot.straps.role * 2 ^ 17 + s.boot.straps.linksplit * 2 ^ 14 + devOf s

def lnkStatus (s : State) (n : Nat) : Nat :=
  let k := linkOf s n
  k.peerId * 2 ^ 32 + k.disReason * 2 ^ 24 + k.peerPort * 2 ^ 16 + k.peerKind * 2 ^ 12 + k.lanes * 2 ^ 8
  + bitNat k.lrev * 2 ^ 7 + laneCount k.lanes * 2 ^ 4 + bitNat (foldIndex s n).isSome * 8 + k.state

/-- A port's dynamic address with its valid bit. -/
def daField (p : MgtPort) : Nat :=
  match p.da with
  | some a => 128 + a
  | none => 0

def mgtPort (s : State) (p : Nat) : MgtPort := s.mgt.ports.getD p { eid := 0, da := none, staged := [], outstanding := none }

def mgtStatus (s : State) : Nat :=
  daField (mgtPort s 1) * 2 ^ 24 + daField (mgtPort s 0) * 2 ^ 16 + (mgtPort s 1).eid * 2 ^ 8 + (mgtPort s 0).eid

def dbgResetWord (s : State) : Nat := s.regs.dbgIgnored * 2 ^ 8 + s.regs.dbgHold

/-! ### The register map (Table 24-2, R518) -/

/-- The settings registers with RWL fields, in ascending offset, but for the ring registers: offset, bytes that the register
has, mask of its RWL bits. -/
def settingsRegs : List (Nat × Nat × Nat) :=
  [(0x0020, 4, 0x00010FFF), (0x3000, 8, 0x7F1FFF7FFF), (0x3008, 4, 0x001F7F07), (0x3010, 4, 0x03FF3F01), (0x4000, 4, 1),
   (0x4008, 4, 0xFFFFFFFF), (0x4010, 4, 0xFFFF), (0x4018, 4, 0x0FFF)]
  ++ [(0x5000, 8, 0xFFFFFFFFFFFFFFFF), (0x5008, 8, 0xFFFFFFFF), (0x5010, 4, 0xFFFFFF), (0x6008, 4, 0x0FFF0FFF),
   (0x7000, 4, 0x10FFF), (0x8000, 4, 7)]

/-- A settings register as it is stored. -/
def getSetting (r : Regs) (off : Nat) : Nat :=
  match off with
  | 0x0020 => r.cfgGuard
  | 0x3000 => r.hrtFrame
  | 0x3008 => r.hrtSync
  | 0x3010 => r.hrtCtrl
  | 0x4000 => r.pwrCtrl
  | 0x4008 => r.pwrCap
  | 0x4010 => r.pwrLimits
  | 0x4018 => r.pwrTherm
  | 0x5000 => r.memLinearLo
  | 0x5008 => r.memLinearHi
  | 0x5010 => r.memTherm
  | 0x6008 => r.lnkDegrade
  | 0x7000 => r.fabTransport
  | 0x8000 => r.mgtCtrl
  | _ => 0

/-- Read-only registers of the PF, by offset. -/
def readOnly (s : State) (off : Nat) : Option Nat :=
  match off with
  | 0x0000 => some (cfgId s)
  | 0x0008 => some s.fuse.serial
  | 0x0010 => some (cfgState s)
  | 0x0018 => some (cfgErrStatus s)
  | 0x0028 => some s.regs.writesIgnored
  | 0x0108 => some (secStatus s)
  | 0x3018 => some (hrtEffective s)
  | 0x3020 => some s.herd.time
  | 0x3028 => some (if inHerd s then s.herd.frame else 0)
  | 0x3030 => some s.herd.s
  | 0x3038 => some (hrtStatus s)
  | 0x4020 => some s.fuse.baseW
  | 0x4028 => some (pwrStatus s)
  | 0x5018 => some (memHealth s)
  | 0x6000 => some (lnkStraps s)
  | 0x8008 => some (mgtStatus s)
  | _ => if 0x6100 ≤ off ∧ off < 0x6300 ∧ off % 8 = 0 then some (lnkStatus s ((off - 0x6100) / 8)) else none

/-- The ring register of a function at an offset of its BAR: 0 RING_DIR_BASE, 1 RING_DB_BASE, 2 RING_CTRL. -/
def ringReg (fn off : Nat) : Option Nat :=
  let o := if fn = 0 then (if 0x1000 ≤ off then off - 0x1000 else 0x1000) else off
  if o = 0 then some 0 else if o = 8 then some 1 else if o = 16 then some 2 else none

/-- Where a function's BAR holds its MSI-X table (R517, R522); its PBA is one page above. -/
def msixTable (fn : Nat) : Nat := if fn = 0 then 0xA000 else 0x2000

/-- One aligned slot of the MSI-X table: an entry's address, or its data and vector control. -/
def msixSlot (f : FnState) (slot : Nat) : Nat :=
  let e := msixOf f (slot / 16)
  if slot % 16 = 0 then e.addr else e.data + bitNat e.masked * 2 ^ 32

/-- The pending bits of vectors 0 to 63, in order. -/
def pendingBits (f : FnState) : Nat := ((List.range 64).map (fun v => bitNat (msixOf f v).pendingBit * 2 ^ v)).sum

/-- What a read of an aligned slot of a function's BAR returns; a reserved offset, the nudge page and SEC_LOCK read as 0. -/
def readSlot (s : State) (fn off : Nat) : Nat :=
  match ringReg fn off with
  | some 0 => (fnOf s fn).dirBase
  | some 1 => (fnOf s fn).dbBase
  | some _ => ringCtrl (fnOf s fn)
  | none =>
    if msixTable fn ≤ off ∧ off < msixTable fn + 0x400 then msixSlot (fnOf s fn) (off - msixTable fn)
    else if off = msixTable fn + 0x1000 then pendingBits (fnOf s fn)
    else if fn ≠ 0 then 0
    else if off = 0x9000 then dbgResetWord s
    else
      match readOnly s off with
      | some v => v
      | none => getSetting s.regs off

/-- The 17 registers of SETUP_DIGEST, RWL fields only (R530). -/
def setupValues (s : State) : List Nat :=
  [s.regs.cfgGuard, (fnOf s 0).dirBase, (fnOf s 0).dbBase, bitNat (fnOf s 0).enable]
  ++ (settingsRegs.drop 1).map (fun r => getSetting s.regs r.1)

end Sys2Proof.Machine
end

