-- ==== Sys2Proof/Machine/RegFile.lean ====
section
/-! DEFINITION. Register writes: the access rules, the settings registers, the ring registers, SEC_LOCK, DBG_RESET, MGT_CTRL,
the MSI-X table and the nudge page (file 24; R88, R336, R351, R375, R404, R447, R462, R516). -/
namespace Sys2Proof.Machine

/-! ### Counting and shape (R519, R521) -/

def updRegs (f : Regs → Regs) (s : State) : State := { s with regs := f s.regs }

/-- A write to a defined register ignored as a whole. -/
def ignoreWrite (s : State) : State := updRegs (fun r => { r with writesIgnored := min 0xFFFFFFFF (r.writesIgnored + 1) }) s

/-- Aligned to and of 4 or 8 bytes, within a slot. -/
def writeShape (lo n : Nat) : Bool := (lo == 0 && (n == 4 || n == 8)) || (lo == 4 && n == 4)

/-- The register as it would stand: bytes put in, reserved bits kept at zero. -/
def mergeWrite (old lo mask : Nat) (bs : List Byte) : Nat := leNat (splice (natLe 8 old) lo bs) &&& mask

/-- Bits that a write of `n` bytes at `lo` names. -/
def touchedBits (lo n mask : Nat) : Nat := ((2 ^ (8 * n) - 1) * 2 ^ (8 * lo)) &&& mask

/-! ### Settings registers -/

def inRange (v hi lo a b : Nat) : Bool := decide (a ≤ bitsOf v hi lo) && decide (bitsOf v hi lo ≤ b)

/-- Every field within its stated range. -/
def settingFits (off v : Nat) : Bool :=
  match off with
  | 0x3000 => inRange v 38 32 1 64 && inRange v 14 0 50 16384 && decide (3 ≤ guardReg v) && decide (guardReg v ≤ periodReg v / 4)
  | 0x3008 => inRange v 20 16 2 16 && inRange v 14 8 1 64
  | 0x3010 => inRange v 25 16 10 1000 && inRange v 13 8 5 40
  | 0x4008 => inRange v 31 16 1500 6000 && inRange v 15 0 1500 6000
  | 0x4010 => inRange v 15 8 44 52 && inRange v 7 0 60 185
  | 0x4018 => inRange v 11 8 1 10 && inRange v 7 0 80 105
  | 0x5010 =>
    inRange v 23 16 90 110 && inRange v 15 12 1 8 && inRange v 11 8 1 8 && inRange v 7 0 70 100
    && decide (bitsOf v 7 0 + 3 * bitsOf v 11 8 < bitsOf v 23 16)
  | 0x6008 => inRange v 27 16 50 4095 && inRange v 11 8 2 15 && inRange v 7 0 1 255
  | 0x7000 => inRange v 11 8 2 10 && inRange v 7 0 5 100
  | _ => true

def putSetting (off v : Nat) (r : Regs) : Regs :=
  match off with
  | 0x0020 => { r with cfgGuard := v }
  | 0x3000 => { r with hrtFrame := v }
  | 0x3008 => { r with hrtSync := v }
  | 0x3010 => { r with hrtCtrl := v }
  | 0x4000 => { r with pwrCtrl := v }
  | 0x4008 => { r with pwrCap := v }
  | 0x4010 => { r with pwrLimits := v }
  | 0x4018 => { r with pwrTherm := v }
  | 0x5000 => { r with memLinearLo := v }
  | 0x5008 => { r with memLinearHi := v }
  | 0x5010 => { r with memTherm := v }
  | 0x6008 => { r with lnkDegrade := v }
  | 0x7000 => { r with fabTransport := v }
  | 0x8000 => { r with mgtCtrl := v }
  | _ => r

/-- A disabled management port gives up its dynamic address (Table 24-12). -/
def dropAddresses (s : State) : State :=
  { s with mgt := { s.mgt with ports := s.mgt.ports.zipIdx.map (fun (e : MgtPort × Nat) =>
      if bitOf s.regs.mgtCtrl e.2 then e.1 else { e.1 with da := none }) } }

/-- What a stored value does at once: caps and mode outside READY (R146, R471), the management ports, and HRT_SYNC and HRT_CTRL
outside a herd, which has no sync interval (R523, log entry 66). -/
def settingStored (off : Nat) (s : State) : State :=
  if off = 0x4000 ∨ off = 0x4008 then (if inMode s .ready then s else applyCaps s)
  else if off = 0x8000 then dropAddresses s
  else if (off = 0x3008 ∨ off = 0x3010) ∧ inHerd s = false then beginInterval s
  else s

/-- A write to a settings register whose shape is good. -/
def writeSetting (off width mask lo : Nat) (bs : List Byte) (s : State) : State :=
  let v := mergeWrite (getSetting s.regs off) lo mask bs
  if width ≤ lo ∨ touchedBits lo bs.length mask = 0 then s
  else if s.regs.locked || ((off == 0x5000 || off == 0x5008) && !s.contexts.isEmpty) || !settingFits off v then ignoreWrite s
  else settingStored off (updRegs (putSetting off v) s)

/-! ### Ring registers (R88, R469) -/

/-- RING_CTRL: ENABLE set reads the doorbell block at once; cleared only while every ring is closed. -/
def writeEnable (fn : Nat) (on : Bool) (s : State) : State :=
  let f := fnOf s fn
  if on == f.enable then s
  else if !on then (if f.rings.isEmpty then updFn fn (fun f => { f with enable := false }) s else ignoreWrite s)
  else
    let s := updFn fn (fun f => { f with enable := true }) s
    if portUp s then readDoorbells fn s else s

def writeRingReg (fn reg lo : Nat) (bs : List Byte) (s : State) : State :=
  let f := fnOf s fn
  let base := 0xFFFFFFFFFFFFF000
  if fn = 0 ∧ s.regs.locked = true ∧ touchedBits lo bs.length (if reg = 2 then 1 else base) ≠ 0 then ignoreWrite s
  else if reg = 2 then (if lo = 0 then writeEnable fn (bitOf (leNat bs) 0) s else s)
  else if fn ≠ 0 ∧ f.enable = true then ignoreWrite s
  else if reg = 0 then updFn fn (fun f => { f with dirBase := mergeWrite f.dirBase lo base bs }) s
  else updFn fn (fun f => { f with dbBase := mergeWrite f.dbBase lo base bs }) s

/-! ### SEC_LOCK and DBG_RESET -/

def writeLock (lo : Nat) (bs : List Byte) (s : State) : State :=
  if lo = 0 ∧ bitOf (leNat bs) 0 = true then updRegs (fun r => { r with locked := true }) s else s

/-- A write to DBG_RESET ignored: both counts. -/
def ignoreDbg (s : State) : State := ignoreWrite (updRegs (fun r => { r with dbgIgnored := min 255 (r.dbgIgnored + 1) }) s)

/-- The module leaves the herd as under HERD_LEAVE MODE 0x01. -/
def forceLeave (s : State) : State := if inHerd s then leaveHerd (slipPrompts (stopAll (requestAll s))) else s

/-- HOLD takes a value: the domains newly held are reset from D8 backward, and no later domain stays released. -/
def takeHold (h : Nat) (s : State) : State :=
  let was := s.regs.dbgHold
  let s := if h = 0 then s else forceLeave s
  let s := (List.range 7).reverse.foldl (fun s i => if bitOf h i && !bitOf was i then resetDomain i s else s) s
  let s := updRegs (fun r => { r with dbgHold := h }) s
  { s with boot := { s.boot with released := min s.boot.released (releaseLimit s) } }

def writeDbg (lo : Nat) (bs : List Byte) (s : State) : State :=
  let h := leNat bs % 128
  if lo ≠ 0 then s
  else if s.mgt.unlocked && bitOf s.mgt.scope 2 && holdOrdered h then takeHold h s
  else ignoreDbg s

/-! ### MSI-X table (R87, R517) -/

/-- A write of one slot of the table: address, or data and vector control; an unmasked vector sends what is pending. -/
def writeMsix (fn slot lo : Nat) (bs : List Byte) (s : State) : State :=
  let v := slot / 16
  let e := msixOf (fnOf s fn) v
  if slot % 16 = 0 then
    let a := leNat (splice (natLe 8 e.addr) lo bs)
    updFn fn (fun f => { f with msix := tabSet f.msix v { e with addr := a } }) s
  else
    let w := leNat (splice (natLe 8 (e.data + bitNat e.masked * 2 ^ 32)) lo bs)
    let s := updFn fn (fun f => { f with msix := tabSet f.msix v { e with data := w % 2 ^ 32, masked := bitOf w 32 } }) s
    if e.masked && !bitOf w 32 then
      unmaskVector fn v (updFn fn (fun f => { f with msix := tabUpd f.msix v (fun x => { x with masked := true }) }) s)
    else s

/-! ### Writes of a TLP (R519, R520, R525) -/

def nudgePage (fn : Nat) : Nat := if fn = 0 then 0x2000 else 0x1000

/-- The part of a write that falls in one slot. -/
def slotWrite (fn slot lo : Nat) (bs : List Byte) (s : State) : State :=
  let good := writeShape lo bs.length
  if nudgePage fn ≤ slot ∧ slot < nudgePage fn + 0x1000 then
    if slot = nudgePage fn ∧ lo = 0 ∧ portUp s = true then readDoorbells fn s else s
  else if msixTable fn ≤ slot ∧ slot < msixTable fn + 0x400 then
    if good then writeMsix fn (slot - msixTable fn) lo bs s else s
  else
    match ringReg fn slot with
    | some r => if good then writeRingReg fn r lo bs s else ignoreWrite s
    | none =>
      if fn ≠ 0 then s
      else if slot = 0x100 then (if good then writeLock lo bs s else ignoreWrite s)
      else if slot = 0x9000 then (if good then writeDbg lo bs s else ignoreDbg s)
      else
        match settingsRegs.find? (fun r => r.1 == slot) with
        | some r => if good then writeSetting slot r.2.1 r.2.2 lo bs s else ignoreWrite s
        | none => if !good && (readOnly s slot).isSome then ignoreWrite s else s

/-- A write applied slot by slot, in ascending offset. -/
def writeTlp (fn : Nat) : (fuel a : Nat) → List Byte → State → State
  | 0, _, _, s => s
  | n + 1, a, bs, s =>
    match bs with
    | [] => s
    | _ =>
      let k := min (8 - a % 8) bs.length
      writeTlp fn n (a + k) (bs.drop k) (slotWrite fn (a / 8 * 8) (a % 8) (bs.take k) s)

/-- The function's BAR answers: it exists, and has become ready (R468). -/
def barUp (s : State) (fn : Nat) : Bool :=
  !inMode s .off && decide (2 ≤ s.boot.released) && s.boot.ready && fnUp s fn

/-- One write of a host to a function's BAR. -/
def barWrite (fn off : Nat) (bs : List Byte) (s : State) : State := if barUp s fn then writeTlp fn bs.length off bs s else s

def execRegisterWrite (fn offset : Nat) (data : List Byte) (s : State) : Answer := .next (barWrite fn offset data s)

/-- RING_CTRL of a function. `stores` are the host's stores that come before. -/
def execRingCtrl (fn : Nat) (data : List Byte) (stores : List HostStore) (s : State) : Answer :=
  .next (barWrite fn (if fn = 0 then 0x1010 else 0x10) data (hostStores stores s))

def execSecLock (value : Nat) (s : State) : Answer := .next (barWrite 0 0x100 (natLe 4 value) s)

def execDbgReset (data : List Byte) (s : State) : Answer := .next (barWrite 0 0x9000 data s)

def execMgtCtrl (data : List Byte) (s : State) : Answer := .next (barWrite 0 0x8000 data s)

end Sys2Proof.Machine
end

