-- ==== Sys2Proof/Machine/Telemetry.lean ====
section
/-! DEFINITION. Telemetry blocks and attestation quotes (R145, R149, R505 to R507, R510, R512, R513, R530, R547). -/
namespace Sys2Proof.Machine

/-! ### Counter entries (R513, Table 23-8) -/

/-- How many counters a group keeps per scope, in the list of its rule; group 7 depends on its scope. -/
def groupSize (g : Nat) : Nat :=
  match g with
  | 1 => 23
  | 2 => 12
  | 3 | 4 => 13
  | 5 => 8
  | 6 => 18
  | 8 => 4
  | 9 => 12
  | 10 => 16
  | 11 => 18
  | 12 => 46
  | _ => 0

/-- The value of a counter: most are kept, some are shown from the state. Row activations of a stack are not told by the
model's commands: free values (log entry 33). -/
def counterValue (s : State) (g i scope : Nat) : Nat :=
  if g = 5 ∧ i = 0 then (((ctxAt s scope).bind (·.pool)).map (fun p => p.usedFrames.length)).getD 0
  else if g = 9 ∧ i = 0 then ((ctxAt s scope).map (·.generation)).getD 0
  else if g = 10 ∧ i = 3 then Config.freeNat (s.free + scope) % 2 ^ 64
  else if g = 10 ∧ i = 9 then (s.mem.failed.filter (fun c => c / 64 == scope)).length
  else if g = 10 ∧ i = 10 then (stackAt s scope).spares.length
  else if g = 11 ∧ i = 0 then lnkStatus s scope
  else if g = 11 ∧ i = 16 then (linkOf s scope).trainedWidth
  else if g = 11 ∧ i = 17 then laneCount (linkOf s scope).lanes
  else counterOf s g i scope

/-- A counter entry: ID holds GROUP in its high half and INDEX in its low half. -/
def counterEntry (g i scope v : Nat) : List Byte := natLe 2 i ++ natLe 2 g ++ natLe 4 scope ++ natLe 8 v

def scopeEntries (s : State) (g n scope : Nat) : List (List Byte) :=
  (List.range n).map (fun i => counterEntry g i scope (counterValue s g i scope))

/-- Scopes of the precision guard of a context: every (program, class) that has counted. -/
def guardScopes (s : State) (c : Nat) : List Nat :=
  ((s.counters.filterMap (fun e =>
    if e.1 / 2 ^ 48 = 2 ∧ e.1 % 2 ^ 32 / 2 ^ 24 = c then some (e.1 % 2 ^ 32) else none)).mergeSort).eraseDups

/-- Layers of a context with routing counters: those that have counted, and those with a hot pool. -/
def routedLayers (s : State) (c : Nat) (x : Context) : List Nat :=
  let counted : List Nat := s.counters.filterMap (fun e =>
    if e.1 / 2 ^ 48 = 6 ∧ e.1 % 2 ^ 32 / 2 ^ 16 = c then some (e.1 % 2 ^ 16) else none)
  ((counted ++ x.hotPools.map (·.1)).mergeSort).eraseDups

/-- Entries of one context, groups 2 to 7 and 9, and the transport's counts of the context (R405), for SELECT 0x01. Table 23-8
gives those counts no scope: they take their group and the context (log entry 33). -/
def contextEntries (s : State) (c : Nat) (x : Context) : List (List Byte) :=
  (guardScopes s c).flatMap (scopeEntries s 2 (groupSize 2))
  ++ (s.streams.filter (fun t => t.2.ctx == c)).flatMap (fun t => scopeEntries s 3 (groupSize 3) t.2.number)
  ++ scopeEntries s 4 (groupSize 4) c
  ++ scopeEntries s 5 (groupSize 5) c
  ++ (routedLayers s c x).flatMap (fun l => scopeEntries s 6 (groupSize 6) (c * 2 ^ 16 + l))
  ++ x.programs.flatMap (fun p => scopeEntries s 7 4 (c * 2 ^ 8 + p.1))
  ++ scopeEntries s 7 8 (c * 2 ^ 8 + 0xFF)
  ++ scopeEntries s 9 (groupSize 9) c
  ++ (List.range (groupSize 12)).map (fun i => counterEntry 12 i c (counterOf s 14 i c))

/-- What a port may see: a VF its own context, a management port no context, the PF all; module groups are not a VF's. -/
def sees (src : CmdSrc) (c : Nat) : Bool :=
  match src with
  | .ring f _ _ => f == 0 || f == c + 1
  | .mgt _ => false

def isVf (src : CmdSrc) : Bool :=
  match src with
  | .ring f _ _ => f != 0
  | .mgt _ => false

def counterEntries (s : State) (src : CmdSrc) (coarse : Bool) : List (List Byte) :=
  (if isVf src then [] else scopeEntries s 1 (groupSize 1) 0)
  ++ (if coarse then [] else (s.contexts.filter (fun e => sees src e.1)).flatMap (fun e => contextEntries s e.1 e.2))
  ++ (if isVf src then [] else scopeEntries s 8 (groupSize 8) 0)

/-- The 256 busiest destinations, by packets sent and received, ascending. -/
def busiest (s : State) : List Nat :=
  let ks := s.counters.filter (fun e => e.1 / 2 ^ 48 == 12 && e.1 % 2 ^ 32 != 0xFFFFFFFF && decide (e.1 / 2 ^ 32 % 2 ^ 16 < 15))
  let devs := (ks.map (fun e => e.1 % 2 ^ 32)).eraseDups
  let load (d : Nat) : Nat := ks.foldl (fun n e => if e.1 % 2 ^ 32 = d then n + e.2 else n) 0
  ((devs.mergeSort (fun a b => decide (load b ≤ load a))).take 256).mergeSort

/-- Spare lanes used, one entry per channel: the lane numbers, 16 bits each, the lowest first (log entry 33). -/
def spareEntries (s : State) : List (List Byte) :=
  (List.range 20).flatMap (fun n =>
    let sp := (stackAt s n).spares
    ((sp.map (·.1)).eraseDups.mergeSort).map (fun ch =>
      let lanes := ((sp.filter (fun e => e.1 == ch)).map (·.2)).mergeSort
      counterEntry 13 0 (n * 256 + ch) (lanes.zipIdx.foldl (fun v e => v + e.1 % 65536 * 2 ^ (16 * e.2)) 0)))

/-- The current difference records against the plan held (R374), 16 bytes each as the entries of their block are. -/
def differenceEntries (s : State) : List (List Byte) :=
  match s.herd.plan with
  | some p => (planDiffs s p).map (·.2.2)
  | none => []

/-- SELECT 0x06: stacks, links, transport, lane repair and the difference records. -/
def healthEntries (s : State) (coarse : Bool) : List (List Byte) :=
  (List.range 20).flatMap (scopeEntries s 10 (groupSize 10)) ++ (List.range 64).flatMap (scopeEntries s 11 (groupSize 11))
  ++ (if coarse then [] else (busiest s).flatMap (scopeEntries s 12 (groupSize 12)))
  ++ scopeEntries s 12 (groupSize 12) 0xFFFFFFFF ++ (if coarse then [] else spareEntries s ++ differenceEntries s)

/-! ### Other entries (Table 23-7) -/

/-- The context whose work one of Fleos's own queues of the Tier Engine runs (R97, Table 22-3): 60 a reload, 61 a WEIGHT_LOAD or
WEIGHT_REPLACE, 62 the fetches of pinned experts. A MEM_TEST, queue 63, runs within its row. -/
def fleosQueue (s : State) (k : Nat) : Option Nat :=
  let work (ops : List Nat) : Option Nat :=
    ((s.cmds.find? (fun c => c.phase == .running && ops.contains c.opcode)).map (·.ctx))
  if k = 3 * 64 + 60 then
    (s.contexts.find? (fun c => c.2.layers.any (fun l => l.2.any (fun x => x.state == 1)))).map (·.1)
  else if k = 3 * 64 + 61 then work [5, 6]
  else if k = 3 * 64 + 62 then work [0x10]
  else none

/-- A queue state, for a queue that the port may see; Fleos's own queues bind no list that has an index. -/
def queueEntries (s : State) (src : CmdSrc) : List (List Byte) :=
  (List.range 320).filterMap (fun k =>
    match tabGet s.eng.queues k with
    | some x =>
      if isVf src && !sees src x.ctx then none
      else some (natLe 1 (k / 64) ++ natLe 1 (k % 64) ++ natLe 1 x.state ++ natLe 1 x.ctx ++ natLe 3 x.head ++ natLe 1 x.program)
    | none =>
      if isVf src then none
      else
        let st := match fleosQueue s k with
          | some c => natLe 1 3 ++ natLe 1 c
          | none => natLe 1 0 ++ [0xFF]
        some (natLe 1 (k / 64) ++ natLe 1 (k % 64) ++ st ++ natLe 3 0 ++ [0xFF]))

def slipEntries (s : State) : List (List Byte) :=
  s.herd.log.map (fun e =>
    natLe 8 e.frame ++ natLe 8 e.opened ++ natLe 8 e.newS ++ natLe 1 e.cause ++ natLe 1 e.engine ++ natLe 2 e.queue
    ++ natLe 2 e.first ++ natLe 2 e.requesters ++ natLe 32 0)

def throttleEntries (s : State) : List (List Byte) :=
  s.pwr.reasons.zipIdx.map (fun e =>
    natLe 8 e.1.duration ++ natLe 8 e.1.starts ++ natLe 8 e.1.lastStart ++ natLe 1 (e.2 + 1) ++ natLe 1 (bitNat e.1.active) ++ natLe 6 0)

/-- An error record (Table 18-6). -/
def errBytes (e : ErrRec) : List Byte :=
  natLe 4 e.number ++ natLe 2 e.cls ++ natLe 1 e.severity ++ natLe 1 e.unitKind ++ natLe 2 e.unit ++ natLe 1 e.ctx
  ++ natLe 1 e.engine ++ natLe 2 e.queue ++ natLe 2 e.count ++ natLe 8 e.time ++ natLe 8 e.addr ++ natLe 4 e.listIndex
  ++ natLe 4 e.task ++ natLe 2 e.instr ++ natLe 2 0 ++ natLe 4 e.stream ++ natLe 8 e.detail ++ natLe 8 0

/-- Entries of a SELECT and their size; a coarse block leaves out queues and logs (R149). -/
def blockEntries (s : State) (src : CmdSrc) (sel len : Nat) (coarse : Bool) : Nat × List (List Byte) :=
  match sel with
  | 1 => (16, counterEntries s src coarse)
  | 2 => (8, if coarse then [] else queueEntries s src)
  | 3 => (64, if coarse then [] else slipEntries s)
  | 4 => (32, throttleEntries s)
  | 5 => (64, if coarse then [] else (s.errs.records.take ((len - 64) / 64)).map errBytes)
  | _ => (16, healthEntries s coarse)

/-- A telemetry block: header and entries. -/
def telemetryBlock (s : State) (src : CmdSrc) (sel len : Nat) (coarse : Bool) : List Byte :=
  let (size, es) := blockEntries s src sel len coarse
  natLe 1 1 ++ natLe 1 sel ++ natLe 1 (bitNat coarse) ++ natLe 1 0 ++ natLe 4 es.length ++ natLe 4 size ++ natLe 4 0
  ++ natLe 8 (stampOf s) ++ natLe 4 (64 + size * es.length) ++ natLe 36 0 ++ es.flatten

/-- A block goes to the host buffer of its descriptor, or to the port's staging area (R510). -/
def deliver (c : FleosCmd) (bs : List Byte) (s : State) : State :=
  match c.src with
  | .ring _ _ _ => hostWrite (fieldAt c.desc 24 8) bs s
  | .mgt p => { s with mgt := { s.mgt with ports := s.mgt.ports.modify p (fun m => { m with staged := bs }) } }

/-- TELEMETRY_READ served: the block, or NO_RESOURCE with the size it needs (R145, R512). -/
def serveTelemetry (coarse : Bool) (c : FleosCmd) (s : State) : State :=
  let len := fieldAt c.desc 32 4
  let sel := fieldAt c.desc 17 1
  let bs := telemetryBlock s c.src sel len coarse
  let s := { s with free := s.free + 40 }
  if sel = 5 ∧ len < 128 then finish c.order 4 0x300 128 s
  else if len < bs.length then finish c.order 4 0x300 bs.length s
  else finish c.order 0 (bitNat coarse) bs.length (deliver c bs s)

def execTelemetryRead (src : CmdSrc) (s : State) : Answer := runCmd 0x14 src (serveTelemetry false) noAgain s

/-- TELEMETRY_COARSE: a read that has waited 1 s (R149). -/
def execTelemetryCoarse (src : CmdSrc) (s : State) : Answer := runCmd 0x14 src (serveTelemetry true) noAgain s

/-! ### Quotes (R505 to R507) -/

/-- ROM_DIGEST (Table 24-14). -/
def romDigest : List Byte :=
  [0xE9, 0xD2, 0x41, 0x7C, 0x0B, 0x38, 0xA6, 0x15, 0x9F, 0x27, 0xC4, 0x60, 0xD3, 0x8E, 0x12, 0xB5,
   0x4A, 0x71, 0xE0, 0x9C, 0x36, 0xF8, 0x05, 0xDB, 0x62, 0x1D, 0xAF, 0x83, 0xC7, 0x4E, 0x90, 0x2B]
  ++ [0x58, 0xE6, 0x0A, 0x7F, 0xB1, 0x93, 0x2C, 0xD4, 0x0E, 0x6B, 0xF5, 0x47, 0xA8, 0x31, 0xDC, 0x79]

/-- The DER of a certificate: its bytes are the part's, and it is short enough for R506. -/
def certDer (kind : Nat) : List Byte := (List.range (Config.certLength kind % 1800)).map (Config.identityByte kind)

/-- CERT_DIGEST. -/
def certDigest : List Byte := sha384 (certDer 0)

/-- SETUP_DIGEST (R530). -/
def setupDigest (s : State) : List Byte := sha384 ((setupValues s).flatMap (natLe 8))

/-- LOCKS: SEC_LOCK set, debug unlocked. -/
def lockBits (s : State) : Nat := bitNat s.regs.locked + 2 * bitNat s.mgt.unlocked

/-- Bytes 0 to 303 of a quote. -/
def quoteBody (s : State) (nonce : List Byte) : List Byte :=
  natLe 2 1 ++ natLe 2 304 ++ natLe 4 (s.mgt.quotes + 1) ++ natLe 8 (stampOf s) ++ slice nonce 0 32 ++ romDigest
  ++ (List.range 48).map (Config.identityByte 2) ++ natLe 4 (lnkStraps s) ++ natLe 1 (stateCode s.boot.mode)
  ++ natLe 1 s.boot.hold ++ natLe 1 (lockBits s) ++ natLe 1 s.mgt.scope ++ slice s.herd.planDigest 0 48 ++ setupDigest s
  ++ natLe 8 s.fuse.serial ++ certDigest

/-- One entry of the chain. -/
def chainEntry (kind : Nat) : List Byte := natLe 4 (certDer kind).length ++ certDer kind

/-- A quote with its signature and chain; the second entry begins at the next multiple of 4. -/
def quote (s : State) (nonce : List Byte) : List Byte :=
  let b := quoteBody s nonce
  let e := chainEntry 0
  b ++ (List.range 96).map (Config.signature b) ++ natLe 2 2 ++ natLe 2 0 ++ e ++ natLe ((4 - e.length % 4) % 4) 0 ++ chainEntry 1

/-- In ROM before step 1 of its checks has ended there is no identity key to sign with (R470, R504). -/
def keyAwaited (s : State) : Bool := inMode s .rom && s.boot.hold == 0 && !s.boot.training

/-- ATTEST_QUOTE: signed at the moment its row runs. The descriptor has no BUF_LEN: log entry 34. -/
def execAttestQuote (src : CmdSrc) (s : State) : Answer :=
  runCmd 0x15 src (fun c s =>
    if keyAwaited s then updCmd c.order (fun x => { x with phase := .waiting }) s
    else
      let q := quote s (slice c.desc 32 32)
      let s := { s with mgt := { s.mgt with quotes := s.mgt.quotes + 1 } }
      finishOk c.order q.length (deliver c q s)) noAgain s

end Sys2Proof.Machine
end

