-- ==== Sys2Proof/Machine/BootCtl.lean ====
section
/-! DEFINITION. The input, reset, start-up, the coolant-flow stop, recovery and the memory test (files 20, 21; R426, R428, R441
to R444, R467, R485, R537, R147). -/
namespace Sys2Proof.Machine

/-! ### The input (R426, R428, R463, R537) -/

/-- Everything the module holds is gone: no memory is kept without the input. Pins, fuses and the host are not the module's. -/
def powerOff (s : State) : State :=
  { State.reset with
    boot := { State.reset.boot with
      mode := .off, released := 0, inputOn := false, railsUp := false, perstLow := s.boot.perstLow, flowLow := s.boot.flowLow }
    fuse := s.fuse, host := { s.host with held := [] }, nextOrder := s.nextOrder, free := s.free, out := s.out, pending := s.pending }

/-- INPUT_LOCKOUT: below 42 V, or above 64 V, every converter stops; above 72 V no effect is given. -/
def execInputLockout (volts10mV : Nat) (s : State) : Answer :=
  if 7200 < volts10mV then .fault .inputDamage
  else .next (if volts10mV < 4200 ∨ 6400 < volts10mV then faultEdge s (powerOff s) else s)

/-- INPUT_QUALIFIED: 44 V to 60 V for 100 ms start the converters. -/
def execInputQualified (volts10mV : Nat) (s : State) : Answer :=
  if 7200 < volts10mV then .fault .inputDamage
  else .next (if inMode s .off && decide (4400 ≤ volts10mV) && decide (volts10mV ≤ 6000) then
    { s with boot := { s.boot with inputOn := true } } else s)

/-- RAILS_UP: the power-arrival cause ends; D0 and D1 are released unless PERST_N is low. -/
def execRailsUp (s : State) : Answer :=
  .next (if inMode s .off && s.boot.inputOn then
    { s with boot := { s.boot with
      mode := .rom, railsUp := true, lastReset := 0, released := if s.boot.perstLow then 0 else 2 } } else s)

/-! ### Reset (R458, R460, R535) -/

/-- PERST_N low: recognised from 1.2 µs, never below 0.8 µs; between them either way, a free value. -/
def execPerstN (lowNs : Nat) (s : State) : Answer :=
  .next (
    let (b, s) := if 800 ≤ lowNs ∧ lowNs < 1200 then takeBool s else (decide (1200 ≤ lowNs), s)
    if b && !s.boot.perstLow then resetAll 1 { s with boot := { s.boot with perstLow := true, lastReset := 1 } } else s)

/-- PERST_N rises: the hardware releases D0 and D1. -/
def execPerstNRelease (s : State) : Answer :=
  .next (if s.boot.perstLow then
    { s with boot := { s.boot with perstLow := false, released := if inMode s .off then 0 else 2 } } else s)

def execModuleReset (cause : Nat) (s : State) : Answer := .next (resetAll cause s)

/-- DOMAIN_RELEASE: the next domain in order, up to the first that DBG_RESET holds; with D8 the reset completes, and FAULT_N
is released unless a thermal reset still holds it (R421, Table 22-3). -/
def execDomainRelease (s : State) : Answer :=
  .next (if inMode s .off || decide (s.boot.released < 2) || decide (releaseLimit s ≤ s.boot.released) then s
    else
      let n := s.boot.released + 1
      faultEdge s { s with boot := { s.boot with
        released := n, faultHeld := if n = 9 then s.boot.thermalHold else s.boot.faultHeld } })

/-! ### ROM (R465 to R467) -/

/-- A ROM hold; the functions become ready (R468). -/
def enterHold (code : Nat) (s : State) : State :=
  faultEdge s { s with boot := { s.boot with hold := code, training := false, ready := true } }

/-- The first check that fails, 0 for none. -/
def romHold (fuse : Fuse) (first second : Straps) (fuseOk : Bool) (digest : List Byte) : Nat :=
  if !fuseOk then 1
  else if digest ≠ romDigest then 2
  else if first ≠ second then 3
  else if second.bell = 3 then 4
  else if second.linksplit = 7 then 5
  else if !bitOf fuse.roleMask second.role || !bitOf fuse.linksplitMask second.linksplit then 6
  else 0

/-- ROM_CHECKS: the two samples of the straps, the fuse block's own check and the measurement of the ROM image. Straps that
agree are those that LNK_STRAPS shows; after a thermal reset the thermal hold comes before training. -/
def execRomChecks (first second : Straps) (fuseOk : Bool) (digest : List Byte) (s : State) : Answer :=
  .next (if !inMode s .rom || decide (s.boot.released ≠ 9) || decide (s.boot.hold ≠ 0) || s.boot.training then s
    else
      let h := romHold s.fuse first second fuseOk digest
      let s := if h = 0 ∨ 4 ≤ h then { s with boot := { s.boot with straps := second } } else s
      if h ≠ 0 then enterHold h s
      else if s.boot.thermalHold then enterHold 8 s
      else beginTraining s)

/-- Cores with a word that cannot be repaired are fenced, each with its record. -/
def fenceBad (s : State) (c : Engine × Nat) : State :=
  let per := match c.1 with | .ge => 1600 | _ => 5120
  recordErr { blankErr 5 with
    unitKind := (match c.1 with | .ge => 2 | _ => 1), unit := c.2 % per, engine := c.1.code, detail := c.2 }
    { s with eng := { s.eng with fenced := c :: s.eng.fenced } }

/-- Both pseudo-channels of a channel with too few spares fail (R346). -/
def failChannel (s : State) (ch : Nat) : State :=
  (List.range 2).foldl (fun s i =>
    let pc := ch / 32 * 64 + 2 * (ch % 32) + i
    recordErr { blankErr 9 with unitKind := 2, unit := pc / 64, detail := pc % 64 }
      { s with mem := { s.mem with failed := if s.mem.failed.contains pc then s.mem.failed else pc :: s.mem.failed } }) s

/-- TRAINING_COMPLETE: self-test, stacks and links in order; TRAINED, or hold 0x07. Links without a report are DOWN. -/
def execTrainingComplete (report : TrainReport) (s : State) : Answer :=
  .next (if !inMode s .rom || !s.boot.training then s
    else if report.arrayBad then enterHold 7 s
    else
      let s := report.badChannels.foldl failChannel (report.badCores.foldl fenceBad s)
      let s := report.spares.foldl (fun s e =>
        updStack (e.1 / 256) (fun k => { k with spares := k.spares ++ [(e.1 % 256, e.2)] }) s) s
      let s := { s with links := s.links.map (fun k => { k with state := 4 }) }
      let s := report.links.foldl (fun s r => identify r s) s
      breakSpan { s with boot := { s.boot with mode := .trained, training := false, hold := 0, ready := true } })

/-! ### Thermal reset and the coolant-flow stop (R441 to R444, R467, R485) -/

/-- THERMAL_RESET: a die still reads 115 °C or above 1 ms later. -/
def execThermalReset (s : State) : Answer :=
  .next (if powerRuns s && s.pwr.thermalPending && s.pwr.temps.any (fun t => decide (115 ≤ t)) then resetAll 3 s else s)

/-- A queue as the stop leaves it: a running command is abandoned, without its event; a frame queue goes to command 0 and
waits for a tick, another to the command after the abandoned one; a stop request takes effect. -/
def stopQueue (frame : Bool) (x : Queue) : Queue :=
  let y := { x with
    cur := none, issued := 0, finished := 0, worked := false, defect := none, late := false, missed := false, reissue := []
    stopReq := none }
  if x.state = 3 then
    { y with state := if x.stopReq.isSome then 4 else 2, head := if frame then 0 else x.head + 1, awaitTick := frame }
  else if frame ∧ x.state = 2 then { x with head := 0, awaitTick := true }
  else x

/-- Host commands whose work the abandoned commands carried complete STOPPED_THERMAL: a prompt whose prefill the abandoned
frame carries, in a context of which a queue ran. Replacements, reloads and their barriers stay, and PROGRAM_START stays
open. -/
def stopHostWork (ctxs : List Nat) (s : State) : State :=
  s.cmds.foldl (fun s c =>
    if c.phase = .running ∧ c.opcode = 0xC then
      if !carriedBy s.herd.frame c || !ctxs.contains c.ctx then s else endPrompt (fieldAt c.desc 20 4 % 65536) c.order 9 0 0 s
    else if c.phase = .running ∧ c.opcode = 5 then finish c.order 9 0 0 s
    else s) s

/-- The stop of R442: nothing further is launched, running commands are abandoned, the dies are gated and every stack is in
self-refresh. -/
def flowStop (s : State) : State :=
  let s := { s with pwr := { s.pwr with stopped := true } }
  let hit := s.eng.queues.filter (fun e => e.2.state == 3)
  let s := hit.foldl (fun s e =>
    match e.1 / 64 with
    | 3 => dropWork .te (e.1 % 64) s
    | 4 => dropWork .fe (e.1 % 64) s
    | _ => s) s
  let s := { s with eng := { s.eng with
    tasks := [], held := []
    queues := s.eng.queues.map (fun (e : Nat × Queue) => (e.1, stopQueue (isFrameQueue s e.2) e.2)) } }
  let s := { s with mem := { s.mem with stackStates := s.mem.stackStates.map (fun k => { k with selfRefresh := true }) } }
  let s := stopHostWork (hit.map (fun e => e.2.ctx)) s
  noteReasons ((allPrograms s).foldl (fun s p => settleProgram p.1 p.2 s) s)

/-- FLOW_FAIL_N low for 10 µs: the stop, or in ROM the end of training with hold 0x09. -/
def execFlowFail (heldNs : Nat) (s : State) : Answer :=
  .next (if heldNs < 10000 then s
    else
      let s := { s with boot := { s.boot with flowLow := true } }
      if inMode s .off then s
      else if inMode s .rom then
        if s.boot.training then
          enterHold 9 { s with mem := { s.mem with stackStates := s.mem.stackStates.map (fun k => { k with selfRefresh := true }) } }
        else s
      else if s.pwr.stopped then s else flowStop s)

/-- FLOW_FAIL_N high for 10 ms: hold 0x09 ends and training starts from the beginning. A stopped module goes on only by
RESUME. -/
def execFlowHoldEnd (s : State) : Answer :=
  .next (
    let s := { s with boot := { s.boot with flowLow := false } }
    if inMode s .rom && s.boot.hold == 9 then
      beginTraining { s with mem := { s.mem with stackStates := s.mem.stackStates.map (fun k => { k with selfRefresh := false }) } }
    else s)

/-! ### Recovery (R147) -/

/-- Every context stopped as by step 1 of R130. -/
def stopContexts (s : State) : State := (s.contexts.map (·.1)).foldl (fun s x => stopCtx x s) s

/-- No queue runs a command, and no copy of a granule of a coherent region is left. -/
def allStopped (s : State) : Bool := !anyRunning s && s.contexts.all (fun x => ctxStopped s x.1)

/-- RECOVERY_ENTER once everything has stopped: every context ends, the herd is left, the module is in RECOVERY. -/
def enterRecovery (order : Nat) (s : State) : State :=
  let s := (s.contexts.map (·.1)).foldl (fun s x => endContext x none (fun _ => none) s) s
  let s := if inHerd s then leaveHerd s else breakSpan s
  finishOk order 0 { s with boot := { s.boot with mode := .recovery } }

def execRecoveryEnter (src : CmdSrc) (s : State) : Answer :=
  let go (c : FleosCmd) (s : State) : State :=
    let s := stopContexts s
    if allStopped s then enterRecovery c.order s else s
  runCmd 0x16 src go go s

def execRecoveryExit (src : CmdSrc) (s : State) : Answer :=
  runCmd 0x17 src (fun c s => finishOk c.order 0 (breakSpan { s with boot := { s.boot with mode := .trained } })) noAgain s

/-! ### The memory test (R478, R479) -/

/-- Byte `i` of the granule at `a` after pass `p` of a pattern (Table 21-9). -/
def testByte (pattern seed p a i : Nat) : Byte :=
  match pattern with
  | 1 => if p = 1 ∨ p = 3 then 0xFF else 0
  | 2 => BitVec.ofNat 8 (2 ^ p)
  | _ =>
    let b := BitVec.ofNat 8 (drawMix seed (a / 64 * 9 + i / 8) / 2 ^ (8 * (i % 8)))
    if p < 2 then b else ~~~b

/-- Passes that read, and the last pass. -/
def testReads (pattern p : Nat) : Bool :=
  match pattern with
  | 1 => decide (1 ≤ p ∧ p ≤ 5)
  | 2 => decide (p < 8)
  | _ => p == 1 || p == 3

def lastPass (pattern : Nat) : Nat := match pattern with | 1 => 5 | 2 => 7 | _ => 3

/-- The byte a reading pass expects. -/
def testExpect (pattern seed p a i : Nat) : Byte := testByte pattern seed (if pattern = 1 then p - 1 else p) a i

/-- The granule as a pass leaves it: payload, then tags. -/
def testGran (pattern seed p a : Nat) : Granule :=
  { payload := (List.range 64).map (testByte pattern seed p a), tags := (List.range 8).map (fun i => testByte pattern seed p a (64 + i)) }

/-- A failure found: address, pass, KIND, and for a mismatch the bytes that differ, the first of them and what it read as. -/
structure TestFail where
  addr : Nat
  pass : Nat
  kind : Nat
  count : Nat
  byte : Nat
  found : Byte
deriving DecidableEq, Repr

/-- Granules of the extent in a tier named by TIERS. -/
def testGrans (tiers addr len : Nat) : List Nat :=
  ((List.range (len / 64)).map (fun i => addr + 64 * i)).filter (fun a =>
    match placeOf a with
    | .store => bitOf tiers 0
    | .t1 => bitOf tiers 1
    | _ => false)

/-- What the test finds at a granule: a failed pseudo-channel at the first reading pass, else its first defect. -/
def testFailure (s : State) (pattern : Nat) (ds : List MemDefect) (a : Nat) : Option TestFail :=
  if placeOf a = .t1 ∧ s.mem.failed.contains (channelOf s a) = true then
    some { addr := a, pass := if pattern = 2 then 0 else 1, kind := 3, count := 0, byte := 0, found := 0 }
  else
    (ds.filter (fun d => d.addr / 64 == a / 64 && testReads pattern d.pass)).foldl (fun (b : Option TestFail) d =>
      let f : TestFail := if d.uncorrectable then { addr := a, pass := d.pass, kind := 2, count := 0, byte := 0, found := 0 }
        else { addr := a, pass := d.pass, kind := 1, count := min 255 d.mismatches, byte := d.byteIndex, found := d.found }
      match b with
      | some g => if f.pass < g.pass then some f else some g
      | none => some f) none

/-- Failures in the order found: by pass, in the pass by its direction. -/
def testOrder (pattern : Nat) (x y : TestFail) : Bool :=
  if x.pass = y.pass then
    (if pattern = 1 ∧ (x.pass = 3 ∨ x.pass = 4) then decide (y.addr ≤ x.addr) else decide (x.addr ≤ y.addr))
  else decide (x.pass < y.pass)

/-- A memory test record (Table 21-10). -/
def testRecord (pattern seed : Nat) (f : TestFail) : List Byte :=
  natLe 8 f.addr ++ natLe 1 (match placeOf f.addr with | .t1 => 1 | _ => 0) ++ natLe 1 f.pass ++ natLe 1 f.kind ++ natLe 1 f.count
  ++ (if f.kind = 1 then natLe 1 f.byte ++ [testExpect pattern seed f.pass f.addr f.byte, f.found] else natLe 3 0) ++ natLe 1 0

/-- What a granule holds afterwards: the last pattern, the pattern of the pass before its failure, or the mark that the
stack's error leaves (R344); a failed pseudo-channel takes no write. -/
def testLeave (pattern seed : Nat) (f : Option TestFail) (a : Nat) (s : State) : State :=
  let put (g : Granule) : State := { s with mem := rawPut s.mem a g }
  match f with
  | none => put (testGran pattern seed (lastPass pattern) a)
  | some f =>
    match f.kind with
    | 1 => put (testGran pattern seed (if pattern = 1 then f.pass - 1 else f.pass) a)
    | 2 => put poisonGran
    | _ => s

/-- MEM_TEST. `defects` says what the arrays do wrong; the cache is flushed first, since the test reads and writes the arrays
themselves. -/
def execMemTest (src : CmdSrc) (defects : List MemDefect) (s : State) : Answer :=
  runCmd 0x18 src (fun c s =>
    let pattern := fieldAt c.desc 17 1
    let seed := fieldAt c.desc 48 8
    let s := flushCache s
    let gs := testGrans (fieldAt c.desc 18 1) (fieldAt c.desc 24 8) (fieldAt c.desc 32 8)
    let fails := (gs.filterMap (testFailure s pattern defects)).mergeSort (testOrder pattern)
    let s := gs.foldl (fun s a => testLeave pattern seed (testFailure s pattern defects a) a s) s
    finishOk c.order fails.length
      (hostWrite (fieldAt c.desc 40 8) ((fails.take 4096).flatMap (testRecord pattern seed)) s)) noAgain s

end Sys2Proof.Machine
end

