-- ==== Sys2Proof/Machine/MgtPorts.lean ====
section
/-! DEFINITION. The management ports, debug unlock, IDE and PCI Express configuration (file 23; R468, R499, R517, R524). -/
namespace Sys2Proof.Machine

/-! ### Ports (R508, R509, R511) -/

/-- The port runs: D2 is released, the input is there, and MGT_CTRL enables it. -/
def mgtUp (s : State) (p : Nat) : Bool := !inMode s .off && decide (3 ≤ s.boot.released) && bitOf s.regs.mgtCtrl p

def updPort (p : Nat) (f : MgtPort → MgtPort) (s : State) : State :=
  { s with mgt := { s.mgt with ports := s.mgt.ports.modify p f } }

/-- A response of a Sarlis message: RESULT 0 OK, 1 BUSY, 2 BAD_REQUEST, 3 NOT_PERMITTED. -/
def mgtReply (p cmd result tag : Nat) (body : List Byte) (s : State) : State := emit (.mgt p cmd result tag body) s

/-- The DESCRIPTOR outstanding on a port. -/
def portCmd (s : State) (p : Nat) : Option FleosCmd := (mgtPort s p).outstanding.bind (cmdNo s)

/-- A Sarlis message: ignored by a port that does not run; a reserved byte that is not zero gets BAD_REQUEST (R509). -/
def mgtRow (port cmd : Nat) (h : MgtHead) (k : State → State) (s : State) : Answer :=
  .next (if !mgtUp s port then s else if h.reserved ≠ 0 then mgtReply port cmd 2 h.tag [] s else k s)

/-- DESCRIPTOR: accepted whole, one at a time. -/
def execDescriptor (port : Nat) (head : MgtHead) (bytes : List Byte) (s : State) : Answer :=
  mgtRow port 1 head (fun s =>
    if (portCmd s port).isSome then mgtReply port 1 1 head.tag [] s
    else
      let o := s.nextOrder
      acceptDesc (.mgt port) bytes head.tag (updPort port (fun m => { m with outstanding := some o }) s)) s

/-- A command that fills the staging area is in progress. -/
def staging (s : State) (p : Nat) : Bool :=
  match portCmd s p with
  | some c => c.opcode == 0x14 || c.opcode == 0x15
  | none => false

/-- FETCH: 1 to 1,024 of the bytes staged. -/
def execFetch (port : Nat) (head : MgtHead) (offset length : Nat) (s : State) : Answer :=
  mgtRow port 2 head (fun s =>
    if staging s port then mgtReply port 2 1 head.tag [] s
    else
      let st := (mgtPort s port).staged
      if length < 1 ∨ 1024 < length ∨ st.length < offset + length then mgtReply port 2 2 head.tag [] s
      else mgtReply port 2 0 head.tag (slice st offset length) s) s

/-- Body of the STATE response. -/
def stateBody (s : State) : List Byte :=
  natLe 4 (cfgState s) ++ natLe 8 (pwrStatus s) ++ natLe 8 (cfgErrStatus s) ++ natLe 4 (lnkStraps s) ++ natLe 4 (secStatus s)
  ++ natLe 4 0

def execMgtState (port : Nat) (head : MgtHead) (s : State) : Answer :=
  mgtRow port 3 head (fun s => mgtReply port 3 0 head.tag (stateBody s) s) s

/-- RESET: OK, then a module reset. -/
def execMgtReset (port : Nat) (head : MgtHead) (device : Nat) (s : State) : Answer :=
  mgtRow port 4 head (fun s =>
    if !bitOf s.regs.mgtCtrl 2 then mgtReply port 4 3 head.tag [] s
    else if device ≠ devOf s then mgtReply port 4 2 head.tag [] s
    else resetAll 4 (mgtReply port 4 0 head.tag [] s)) s

/-! ### Debug unlock (R504, R514, R515) -/

/-- A challenge for a scope. -/
def challengeBytes (s : State) (scope : Nat) : List Byte :=
  natLe 1 1 ++ natLe 1 scope ++ natLe 2 0 ++ natLe 8 s.fuse.serial
  ++ (List.range 32).map (fun i => Config.freeByte (s.free + i)) ++ certDigest ++ natLe 4 0

def execDebugChallenge (port : Nat) (head : MgtHead) (scope : Nat) (s : State) : Answer :=
  mgtRow port 5 head (fun s =>
    if 8 ≤ scope then mgtReply port 5 2 head.tag [] s
    else if debugRefusing s then mgtReply port 5 3 head.tag [] s
    else
      let ch := challengeBytes s scope
      mgtReply port 5 0 head.tag ch { s with
        free := s.free + 32, mgt := { s.mgt with challenge := some (ch, s.herd.time) } }) s

/-- Debug may be unlocked now: a ROM hold other than 0x01, TRAINED or RECOVERY, and no context. -/
def unlockState (s : State) : Bool :=
  s.contexts.isEmpty && ((inMode s .rom && decide (2 ≤ s.boot.hold)) || inMode s .trained || inMode s .recovery)

/-- The token answers the latest challenge, in time, and its signature is good. -/
def tokenGood (s : State) (b : List Byte) : Bool :=
  match s.mgt.challenge with
  | none => false
  | some (ch, t) =>
    b.take 96 == ch && decide (s.herd.time - t < 60000000000)
    && decide (fieldAt b 96 1 &&& fieldAt ch 1 1 = fieldAt b 96 1) && decide (fieldAt b 97 3 = 0)
    && decide (fieldAt b 196 4 ≤ 1024) && decide (b.length = 200 + fieldAt b 196 4)
    && Config.debugSignatureGood (b.take 100) (b.drop 100)

/-- DEBUG_RESPONSE: the scope granted, or a failure counted; either way the challenge is answered. -/
def execDebugResponse (port : Nat) (head : MgtHead) (body : List Byte) (s : State) : Answer :=
  mgtRow port 6 head (fun s =>
      let good := tokenGood s body && unlockState s
      let g := fieldAt body 96 1
      mgtReply port 6 (if good then 0 else 2) head.tag [] { s with mgt := { s.mgt with
        challenge := none, unlocked := s.mgt.unlocked || good, scope := if good then s.mgt.scope ||| g else s.mgt.scope
        failures := if good then s.mgt.failures else s.mgt.failures + 1 } }) s

/-! ### MCTP control (R508; bodies of DSP0236, log entry 35) -/

def execSetEndpointId (port eid : Nat) (s : State) : Answer :=
  .next (if !mgtUp s port then s
    else if eid = 0 ∨ eid = 255 then emit (.mctp port 2 []) s
    else emit (.mctp port 0 ([0] ++ natLe 1 eid ++ [0])) (updPort port (fun m => { m with eid }) s))

def execGetEndpointId (port : Nat) (s : State) : Answer :=
  .next (if mgtUp s port then emit (.mctp port 0 (natLe 1 (mgtPort s port).eid ++ [0, 0])) s else s)

def execGetEndpointUuid (port : Nat) (s : State) : Answer :=
  .next (if mgtUp s port then emit (.mctp port 0 ((List.range 16).map Config.endpointUuid)) s else s)

def execGetMctpVersionSupport (port msgType : Nat) (s : State) : Answer :=
  .next (if !mgtUp s port then s
    else if msgType = 0 ∨ msgType = 0x7E ∨ msgType = 0xFF then emit (.mctp port 0 (Config.mctpVersions msgType)) s
    else emit (.mctp port 0x80 []) s)

def execGetMessageTypeSupport (port : Nat) (s : State) : Answer :=
  .next (if mgtUp s port then emit (.mctp port 0 [1, 0x7E]) s else s)

def execDynamicAddressAssignment (port addr : Nat) (s : State) : Answer :=
  .next (if mgtUp s port then updPort port (fun m => { m with da := some addr }) s else s)

/-! ### IDE (R499 to R501) -/

/-- A stream that a key may go to: at most 8, at most one link stream. -/
def ideRoom (s : State) (stream : Nat) (isLink : Bool) : Bool :=
  let others := s.mgt.ide.filter (fun k => k.number != stream)
  decide (others.length < 8) && !(isLink && others.any (·.link))

/-- IDE_KM keys a stream and sets it Secure; what waited goes out in order, and the doorbells are read where the port stood
still. Without a link key there is no session. -/
def execIdeKm (stream : Nat) (isLink : Bool) (key : IdeKeying) (s : State) : Answer :=
  .next (if inMode s .off || !s.boot.ready || s.boot.hold == 1 || !ideRoom s stream isLink then s
    else
      let was := s.mgt.ide.any (fun k => !k.secure)
      let s := releaseHeld { s with mgt := { s.mgt with
        ide := s.mgt.ide.filter (fun k => k.number != stream)
          ++ [{ number := stream, link := isLink, secure := true, key := key.key, blocks := key.blocks }] } }
      if was && portUp s then readAllDoorbells s else s)

/-- IDE_INTEGRITY_FAILURE: the stream is Insecure and sends nothing; reported through AER and counted. The data of the TLP
comes with the poison mark of the row that carries it (HostStore). -/
def execIdeIntegrityFailure (stream : Nat) (s : State) : Answer :=
  .next (if s.mgt.ide.any (fun k => k.number == stream) then
      emit (.aer stream) { s with mgt := { s.mgt with
        ideFailures := s.mgt.ideFailures + 1
        ide := s.mgt.ide.map (fun k => if k.number = stream then { k with secure := false } else k) } }
    else s)

/-! ### Configuration space (R468, R517) -/

/-- What a configuration read returns where the manual gives it: identifiers, class, BARs (Table 24-1). -/
def cfgValue (s : State) (fn offset : Nat) : Option Nat :=
  if offset = 0 ∧ fn = 0 then some (0x1640 * 65536 + Config.vendorId.toNat)
  else if offset = 8 then some (0x12000000 + s.fuse.stepping)
  else if offset = 0x10 then some (if fn = 0 then s.boot.bar % 2 ^ 32 + 4 else 0)
  else if offset = 0x14 then some (if fn = 0 then s.boot.bar / 2 ^ 32 else 0)
  else if (0x18 ≤ offset ∧ offset < 0x28) ∨ offset = 0x30 then some 0
  else if offset = 0x2C then some (0x1640 * 65536 + Config.vendorId.toNat)
  else none

/-- A configuration write: BAR0 and BAR1 of the PF take the base of 64 KiB; VF Enable and function-level resets have their own
rows. -/
def cfgWrite (fn offset value : Nat) (s : State) : State :=
  if fn = 0 ∧ offset = 0x10 then
    { s with boot := { s.boot with bar := s.boot.bar / 2 ^ 32 * 2 ^ 32 + value % 2 ^ 32 / 65536 * 65536 } }
  else if fn = 0 ∧ offset = 0x14 then { s with boot := { s.boot with bar := value % 2 ^ 32 * 2 ^ 32 + s.boot.bar % 2 ^ 32 } }
  else s

/-- CONFIGURATION_REQUEST: retry until the function is ready, then served; what the manual does not give of configuration
space reads as a free value. -/
def execConfigurationRequest (fn : Nat) (write : Bool) (offset value : Nat) (s : State) : Answer :=
  .next (if inMode s .off || decide (s.boot.released < 2) || !fnUp s fn then s
    else if !s.boot.ready then emit (.cfgRetry fn) s
    else if write then cfgWrite fn offset value s
    else
      match cfgValue s fn offset with
      | some v => emit (.cfgData fn offset v) s
      | none =>
        let (v, s) := takeNat (2 ^ 32) s
        emit (.cfgData fn offset v) s)

end Sys2Proof.Machine
end

