-- ==== Sys2Proof/Machine/Dispatch.lean ====
section
/-! DEFINITION. exec: one arm per command, each one direct call of its meaning. -/
namespace Sys2Proof.Machine
open Sys2Proof

def exec (i : Instr) (s : State) : Host.Outcome State Fault Refusal :=
  match i with
  | .ctxCreate src => Sys2Proof.Machine.execCtxCreate src s
  | .ctxDestroy src => Sys2Proof.Machine.execCtxDestroy src s
  | .regionMap src => Sys2Proof.Machine.execRegionMap src s
  | .regionUnmap src => Sys2Proof.Machine.execRegionUnmap src s
  | .weightLoad src => Sys2Proof.Machine.execWeightLoad src s
  | .weightReplace src => Sys2Proof.Machine.execWeightReplace src s
  | .programLoad src => Sys2Proof.Machine.execProgramLoad src s
  | .programStart src => Sys2Proof.Machine.execProgramStart src s
  | .programStop src => Sys2Proof.Machine.execProgramStop src s
  | .streamOpen src => Sys2Proof.Machine.execStreamOpen src s
  | .streamClose src => Sys2Proof.Machine.execStreamClose src s
  | .promptSubmit src => Sys2Proof.Machine.execPromptSubmit src s
  | .batchSet src => Sys2Proof.Machine.execBatchSet src s
  | .streamAbort src => Sys2Proof.Machine.execStreamAbort src s
  | .kvSpillPolicy src => Sys2Proof.Machine.execKvSpillPolicy src s
  | .expertResidency src => Sys2Proof.Machine.execExpertResidency src s
  | .herdJoin src => Sys2Proof.Machine.execHerdJoin src s
  | .herdLeave src => Sys2Proof.Machine.execHerdLeave src s
  | .framePolicy src => Sys2Proof.Machine.execFramePolicy src s
  | .telemetryRead src => Sys2Proof.Machine.execTelemetryRead src s
  | .attestQuote src => Sys2Proof.Machine.execAttestQuote src s
  | .recoveryEnter src => Sys2Proof.Machine.execRecoveryEnter src s
  | .recoveryExit src => Sys2Proof.Machine.execRecoveryExit src s
  | .memTest src defects => Sys2Proof.Machine.execMemTest src defects s
  | .powerSet src => Sys2Proof.Machine.execPowerSet src s
  | .fence src => Sys2Proof.Machine.execFence src s
  | .resume src => Sys2Proof.Machine.execResume src s
  | .descriptorIntake stores => Sys2Proof.Machine.execDescriptorIntake stores s
  | .completionRecord fn ring => Sys2Proof.Machine.execCompletionRecord fn ring s
  | .doorbellRead fn stores => Sys2Proof.Machine.execDoorbellRead fn stores s
  | .doorbellPoll stores => Sys2Proof.Machine.execDoorbellPoll stores s
  | .ringNudge fn offset size stores => Sys2Proof.Machine.execRingNudge fn offset size stores s
  | .ringCtrl fn data stores => Sys2Proof.Machine.execRingCtrl fn data stores s
  | .resetWalk fn => Sys2Proof.Machine.execResetWalk fn s
  | .msixModerationTimer fn ring => Sys2Proof.Machine.execMsixModerationTimer fn ring s
  | .msixUnmask fn vector => Sys2Proof.Machine.execMsixUnmask fn vector s
  | .functionLevelReset fn => Sys2Proof.Machine.execFunctionLevelReset fn s
  | .vfEnable enable numVfs => Sys2Proof.Machine.execVfEnable enable numVfs s
  | .nop e q => Sys2Proof.Machine.execNop e q s
  | .endList e q => Sys2Proof.Machine.execEndList e q s
  | .frameLoop e q => Sys2Proof.Machine.execFrameLoop e q s
  | .commandStart e q => Sys2Proof.Machine.execCommandStart e q s
  | .taskIssue e q => Sys2Proof.Machine.execTaskIssue e q s
  | .commandRetire e q => Sys2Proof.Machine.execCommandRetire e q s
  | .fillGroupWrite ctx program group => Sys2Proof.Machine.execFillGroupWrite ctx program group s
  | .tileRun e unit => Sys2Proof.Machine.execTileRun e unit s
  | .tend e unit => Sys2Proof.Machine.execTend e unit s
  | .load e unit errs => Sys2Proof.Machine.execLoad e unit errs s
  | .store e unit errs => Sys2Proof.Machine.execStore e unit errs s
  | .vop e unit => Sys2Proof.Machine.execVop e unit s
  | .mma e unit mismatches => Sys2Proof.Machine.execMma e unit mismatches s
  | .taskRepeat e unit => Sys2Proof.Machine.execTaskRepeat e unit s
  | .stepPrep q => Sys2Proof.Machine.execStepPrep q s
  | .sample q => Sys2Proof.Machine.execSample q s
  | .routeSelect q => Sys2Proof.Machine.execRouteSelect q s
  | .routePlan q => Sys2Proof.Machine.execRoutePlan q s
  | .routeScatter q => Sys2Proof.Machine.execRouteScatter q s
  | .routeGather q => Sys2Proof.Machine.execRouteGather q s
  | .routeCombine q => Sys2Proof.Machine.execRouteCombine q s
  | .copy q => Sys2Proof.Machine.execCopy q s
  | .replicate q => Sys2Proof.Machine.execReplicate q s
  | .schedule q => Sys2Proof.Machine.execSchedule q s
  | .kvPoolInit q => Sys2Proof.Machine.execKvPoolInit q s
  | .kvAppend q => Sys2Proof.Machine.execKvAppend q s
  | .kvGather q => Sys2Proof.Machine.execKvGather q s
  | .kvSpill ctx => Sys2Proof.Machine.execKvSpill ctx s
  | .kvSpillDone ctx dirSlot page => Sys2Proof.Machine.execKvSpillDone ctx dirSlot page s
  | .kvReturnDone ctx dirSlot page => Sys2Proof.Machine.execKvReturnDone ctx dirSlot page s
  | .scheduleIssue ctx program entry => Sys2Proof.Machine.execScheduleIssue ctx program entry s
  | .scheduleTransferDone xfer => Sys2Proof.Machine.execScheduleTransferDone xfer s
  | .get q => Sys2Proof.Machine.execGet q s
  | .put q => Sys2Proof.Machine.execPut q s
  | .atomic q => Sys2Proof.Machine.execAtomic q s
  | .send q => Sys2Proof.Machine.execSend q s
  | .mbox q => Sys2Proof.Machine.execMbox q s
  | .exchange q => Sys2Proof.Machine.execExchange q s
  | .routeExchange q => Sys2Proof.Machine.execRouteExchange q s
  | .loadReq p => Sys2Proof.Machine.execLoadReq p s
  | .loadResp p => Sys2Proof.Machine.execLoadResp p s
  | .storePacket p => Sys2Proof.Machine.execStorePacket p s
  | .storeAck p => Sys2Proof.Machine.execStoreAck p s
  | .atomicPacket p => Sys2Proof.Machine.execAtomicPacket p s
  | .atomicResp p => Sys2Proof.Machine.execAtomicResp p s
  | .msg p => Sys2Proof.Machine.execMsg p s
  | .msgAck p => Sys2Proof.Machine.execMsgAck p s
  | .ready p => Sys2Proof.Machine.execReady p s
  | .block p => Sys2Proof.Machine.execBlock p s
  | .blockEnd p => Sys2Proof.Machine.execBlockEnd p s
  | .blockAck p => Sys2Proof.Machine.execBlockAck p s
  | .inv p => Sys2Proof.Machine.execInv p s
  | .invAck p => Sys2Proof.Machine.execInvAck p s
  | .retxTimeout dst seq => Sys2Proof.Machine.execRetxTimeout dst seq s
  | .syncInterval => Sys2Proof.Machine.execSyncInterval s
  | .sync m => Sys2Proof.Machine.execSync m s
  | .delayReq m => Sys2Proof.Machine.execDelayReq m s
  | .delayResp m => Sys2Proof.Machine.execDelayResp m s
  | .slipReq m => Sys2Proof.Machine.execSlipReq m s
  | .slip m => Sys2Proof.Machine.execSlip m s
  | .takeover m => Sys2Proof.Machine.execTakeover m s
  | .frameChange m => Sys2Proof.Machine.execFrameChange m s
  | .join m => Sys2Proof.Machine.execJoin m s
  | .joinAck m => Sys2Proof.Machine.execJoinAck m s
  | .joinResend => Sys2Proof.Machine.execJoinResend s
  | .herdJoinTimeout => Sys2Proof.Machine.execHerdJoinTimeout s
  | .herdForm => Sys2Proof.Machine.execHerdForm s
  | .guardPoint => Sys2Proof.Machine.execGuardPoint s
  | .fallbackCheck => Sys2Proof.Machine.execFallbackCheck s
  | .guardWindowOpen => Sys2Proof.Machine.execGuardWindowOpen s
  | .backupBroadcast => Sys2Proof.Machine.execBackupBroadcast s
  | .masterLost => Sys2Proof.Machine.execMasterLost s
  | .holdoverExpiry => Sys2Proof.Machine.execHoldoverExpiry s
  | .tick stores => Sys2Proof.Machine.execTick stores s
  | .reloadDone ctx => Sys2Proof.Machine.execReloadDone ctx s
  | .replaceRewriteDone ctx => Sys2Proof.Machine.execReplaceRewriteDone ctx s
  | .chainOffer src => Sys2Proof.Machine.execChainOffer src s
  | .chainReady src => Sys2Proof.Machine.execChainReady src s
  | .pieceNotice src piece poisoned => Sys2Proof.Machine.execPieceNotice src piece poisoned s
  | .peerSourceTimeout src => Sys2Proof.Machine.execPeerSourceTimeout src s
  | .refresh stack pc bank idle => Sys2Proof.Machine.execRefresh stack pc bank idle s
  | .stackTempReading stack temps => Sys2Proof.Machine.execStackTempReading stack temps s
  | .stackThrottleFall stack => Sys2Proof.Machine.execStackThrottleFall stack s
  | .storeScrub corrected bad => Sys2Proof.Machine.execStoreScrub corrected bad s
  | .meshFlitReceive edge data crc granules => Sys2Proof.Machine.execMeshFlitReceive edge data crc granules s
  | .flitReceive link flit fec => Sys2Proof.Machine.execFlitReceive link flit fec s
  | .nak link ack => Sys2Proof.Machine.execNak link ack s
  | .replayTimeout link => Sys2Proof.Machine.execReplayTimeout link s
  | .laneLockLoss link lost symbolErrors => Sys2Proof.Machine.execLaneLockLoss link lost symbolErrors s
  | .degradeMessage link lane lastSeq => Sys2Proof.Machine.execDegradeMessage link lane lastSeq s
  | .retrainComplete link lastSeq => Sys2Proof.Machine.execRetrainComplete link lastSeq s
  | .linkDown link => Sys2Proof.Machine.execLinkDown link s
  | .linkRetrainAttempt link report => Sys2Proof.Machine.execLinkRetrainAttempt link report s
  | .identityBlock report => Sys2Proof.Machine.execIdentityBlock report s
  | .controlInterval volts10mV milliamps watts => Sys2Proof.Machine.execControlInterval volts10mV milliamps watts s
  | .brakeN low heldNs => Sys2Proof.Machine.execBrakeN low heldNs s
  | .inputUv volts10mV => Sys2Proof.Machine.execInputUv volts10mV s
  | .inputUvClear volts10mV => Sys2Proof.Machine.execInputUvClear volts10mV s
  | .inputLockout volts10mV => Sys2Proof.Machine.execInputLockout volts10mV s
  | .inputQualified volts10mV => Sys2Proof.Machine.execInputQualified volts10mV s
  | .vrAlert regulator => Sys2Proof.Machine.execVrAlert regulator s
  | .vrAlertClear regulator => Sys2Proof.Machine.execVrAlertClear regulator s
  | .dieTempReading temps => Sys2Proof.Machine.execDieTempReading temps s
  | .dieFloorStep => Sys2Proof.Machine.execDieFloorStep s
  | .thermalReset => Sys2Proof.Machine.execThermalReset s
  | .flowFail heldNs => Sys2Proof.Machine.execFlowFail heldNs s
  | .flowHoldEnd => Sys2Proof.Machine.execFlowHoldEnd s
  | .perstN lowNs => Sys2Proof.Machine.execPerstN lowNs s
  | .moduleReset cause => Sys2Proof.Machine.execModuleReset cause s
  | .domainRelease => Sys2Proof.Machine.execDomainRelease s
  | .romChecks first second fuseOk digest => Sys2Proof.Machine.execRomChecks first second fuseOk digest s
  | .trainingComplete report => Sys2Proof.Machine.execTrainingComplete report s
  | .descriptor port head bytes => Sys2Proof.Machine.execDescriptor port head bytes s
  | .fetch port head offset length => Sys2Proof.Machine.execFetch port head offset length s
  | .mgtState port head => Sys2Proof.Machine.execMgtState port head s
  | .mgtReset port head device => Sys2Proof.Machine.execMgtReset port head device s
  | .debugChallenge port head scope => Sys2Proof.Machine.execDebugChallenge port head scope s
  | .debugResponse port head body => Sys2Proof.Machine.execDebugResponse port head body s
  | .setEndpointId port eid => Sys2Proof.Machine.execSetEndpointId port eid s
  | .getEndpointId port => Sys2Proof.Machine.execGetEndpointId port s
  | .getEndpointUuid port => Sys2Proof.Machine.execGetEndpointUuid port s
  | .getMctpVersionSupport port msgType => Sys2Proof.Machine.execGetMctpVersionSupport port msgType s
  | .getMessageTypeSupport port => Sys2Proof.Machine.execGetMessageTypeSupport port s
  | .dynamicAddressAssignment port addr => Sys2Proof.Machine.execDynamicAddressAssignment port addr s
  | .ideKm stream isLink key => Sys2Proof.Machine.execIdeKm stream isLink key s
  | .ideIntegrityFailure stream => Sys2Proof.Machine.execIdeIntegrityFailure stream s
  | .secLock value => Sys2Proof.Machine.execSecLock value s
  | .dbgReset data => Sys2Proof.Machine.execDbgReset data s
  | .mgtCtrl data => Sys2Proof.Machine.execMgtCtrl data s
  | .registerWrite fn offset data => Sys2Proof.Machine.execRegisterWrite fn offset data s
  | .perstNRelease => Sys2Proof.Machine.execPerstNRelease s
  | .railsUp => Sys2Proof.Machine.execRailsUp s
  | .cableSupplyOverload connector => Sys2Proof.Machine.execCableSupplyOverload connector s
  | .cableSupplyRetry connector overload => Sys2Proof.Machine.execCableSupplyRetry connector overload s
  | .telemetryCoarse src => Sys2Proof.Machine.execTelemetryCoarse src s
  | .dropNotice home => Sys2Proof.Machine.execDropNotice home s
  | .chainOfferReceive dev opcode srcAddr destAddr length => Sys2Proof.Machine.execChainOfferReceive dev opcode srcAddr destAddr length s
  | .kvHandover srcDev stream layoutId tokens fed pages => Sys2Proof.Machine.execKvHandover srcDev stream layoutId tokens fed pages s
  | .configurationRequest fn write offset value => Sys2Proof.Machine.execConfigurationRequest fn write offset value s

end Sys2Proof.Machine
end

