-- ==== Sys2Proof/Safety.lean ====
section
/-! DEFINITION. What claims about runs are stated with: the canonical form of the byte memories, what a step keeps, and runs
that do not stop. -/
namespace Sys2Proof.Machine

/-- The three byte memories are canonical: addresses strictly ascending, no byte that an unlisted address reads as. -/
abbrev State.memOk (s : State) : Prop := Memory.wf s.host.cells ∧ Memory.wf s.mem.cells ∧ Memory.wf s.mem.tags

/-- Every enabled function's tables and every per-key table that statements speak of are ascending. -/
abbrev State.tablesOk (s : State) : Prop := ascending s.contexts = true ∧ ascending s.counters = true

/-- The block goes on: the step answers a next state. -/
def State.goesOn (s : State) : Prop := ∃ t, step s = .next t

/-- The block goes on for `n` steps. -/
def State.safeFor : (n : Nat) → State → Prop
  | 0, _ => True
  | n + 1, s => ∃ t, step s = .next t ∧ State.safeFor n t

/-- The command that the next step runs is well formed. -/
def State.frontOk (s : State) : Prop := ∀ c rest, s.pending = c :: rest → c.wf = true

/-! ### What statements about Fleos commands are written with -/

/-- The opcode of a row that is Fleos executing one accepted descriptor, and the port the descriptor came through. -/
def fleosRow : Instr → Option (Nat × CmdSrc)
  | .ctxCreate c => some (1, c)
  | .ctxDestroy c => some (2, c)
  | .regionMap c => some (3, c)
  | .regionUnmap c => some (4, c)
  | .weightLoad c => some (5, c)
  | .weightReplace c => some (6, c)
  | .programLoad c => some (7, c)
  | .programStart c => some (8, c)
  | .programStop c => some (9, c)
  | .streamOpen c => some (0xA, c)
  | .streamClose c => some (0xB, c)
  | .promptSubmit c => some (0xC, c)
  | .batchSet c => some (0xD, c)
  | .streamAbort c => some (0xE, c)
  | .kvSpillPolicy c => some (0xF, c)
  | .expertResidency c => some (0x10, c)
  | .herdJoin c => some (0x11, c)
  | .herdLeave c => some (0x12, c)
  | .framePolicy c => some (0x13, c)
  | .telemetryRead c => some (0x14, c)
  | .attestQuote c => some (0x15, c)
  | .recoveryEnter c => some (0x16, c)
  | .recoveryExit c => some (0x17, c)
  | .memTest c _ => some (0x18, c)
  | .powerSet c => some (0x19, c)
  | .fence c => some (0x1A, c)
  | .resume c => some (0x1B, c)
  | _ => none

/-- `c` is the command that `src` names, of opcode `op`; it has not run yet, and its place in the order has come (R123, R136,
R443), and no read it makes waits for an Insecure stream (R501). -/
def turnOf (s : State) (src : CmdSrc) (op : Nat) (c : FleosCmd) : Prop :=
  cmdOf s src = some c ∧ c.opcode = op ∧ c.phase = .waiting ∧ heldBack s c = false ∧ (s.pwr.stopped && !runsStopped op) = false
  ∧ hostWaits s c = false

/-- It also passes the checks of R120 that are common to every command. -/
def runsNow (s : State) (src : CmdSrc) (op : Nat) (c : FleosCmd) : Prop := turnOf s src op c ∧ checkRun s c = none

/-- The state in which a command that passes runs. -/
def running (c : FleosCmd) (s : State) : State := updCmd c.order (fun x => { x with phase := .running }) s

end Sys2Proof.Machine
end

