-- ==== Sys2Proof/Certificates/Slice0/Obligations.lean ====
section
/-! DEFINITION. The statements for the provers. -/
section
open Sys2Proof Sys2Proof.Machine

/-- Herd-control messages: what is discarded is counted and has no other effect; a repeated SEQ has none at all
(02_herd_time_and_frames.md). Where a clause rests on the model's own choice, that is log entry 46. -/
def Obligations.HerdMessageDiscarded : Prop :=
  ∀ (s : State) (m : HerdMsg) (i : Instr) (t : Nat),
    (i, t) ∈ [(Instr.sync m, 1), (.delayReq m, 2), (.delayResp m, 3), (.slipReq m, 4), (.slip m, 5), (.takeover m, 6), (.frameChange m, 7),
        (.join m, 8), (.joinAck m, 9)] →
    (m.type = 0 ∨ 9 < m.type → exec i s = .next (bump 1 22 0 1 s)) ∧
    (m.type = t → powerRuns s = true → s.boot.mode ≠ .off →
      (m.version ≠ 1 ∨ 16384 ≤ m.srcDev ∨ bodyClean m = false ∨ (m.epoch < s.herd.epoch ∧ ¬(t = 8 ∧ s.herd.isMaster = true)) →
        exec i s = .next (bump 1 22 0 1 s)) ∧
      (seqTyped t = true → (s.herd.isMaster = true → m.epoch ≤ s.herd.epoch) →
        (s.herd.seqIn.find? (fun e => e.1 == (t, m.srcDev, m.epoch))).map (·.2) = some m.seq →
        exec i s = .next s ∨ exec i s = .next (bump 1 22 0 1 s)))

/-- SYNC: the master followed, the servo, the schedule and the delay exchange; or a herd-time fault
(02_herd_time_and_frames.md). Where a clause rests on the model's own choice, those are log entries 30, 46, 47 and 66. -/
def Obligations.SyncRow : Prop :=
  ∀ (s : State) (m : HerdMsg) (w : State), receive 1 m s = (true, w) →
    (w.herd.isMaster = true → exec (.sync m) s = .next w) ∧
    (∀ first fresh v y, w.herd.isMaster = false → first = !w.herd.heard →
      fresh = (first || decide (w.herd.epoch < m.epoch) || w.herd.masterDev == devOf w) →
      v = (if fresh then adoptMaster m.srcDev m.epoch w else w) →
      (v.herd.masterDev ≠ m.srcDev → exec (.sync m) s = .next v) ∧
      (v.herd.masterDev = m.srcDev →
        y = updHerd (fun h => { h with heard := true, lastOrigin := m.originTs, interval := msgField m 57 1,
                                       deputyDev := msgField m 58 2, isDeputy := msgField m 58 2 == devOf v }) (beginInterval v) →
        ∀ x, x = (if y.herd.locked = false ∧ y.herd.steppedSync = false
          then updHerd (fun h => { h with steppedSync := true, lockRun := 0 }) (stepTo (msgSent m) y) else y) →
        (∀ theta z, servo (msgSent m) (time256 x) x = (some theta, z) → exec (.sync m) s = .next (herdTimeFault theta z)) ∧
        (∀ z, servo (msgSent m) (time256 x) x = (none, z) → exec (.sync m) s = .next (joinWhenLocked (sweep (delayAfterSync
          (msgSent m) (time256 x) (updHerd (fun h => { h with lastT1 := msgSent m, lastT2 := time256 x })
            (takeSchedule m first fresh z))))))))

/-- DELAY_REQ is answered with the receive time; DELAY_RESP gives one path sample and, at first, the second step of the
counter (02_herd_time_and_frames.md). Where a clause rests on the model's own choice, those are log entries 46 and 47. -/
def Obligations.DelayRows : Prop :=
  ∀ (s : State) (m : HerdMsg) (w : State),
    (∀ x, receive 2 m s = (true, w) →
      x = (if w.herd.isMaster then updHerd (fun h => { h with
          pathDelay := tabSet h.pathDelay m.srcDev (wholeNs (time256 w - msgSent m)),
          bcastNs := if m.srcDev = h.deputyDev then some (msgField m 24 4) else h.bcastNs }) w else w) →
      exec (.delayReq m) s =
        .next (sendHerd m.srcDev 3 (natLe 8 x.herd.time ++ natLe 4 (subNs x) ++ natLe 4 m.seq) x)) ∧
    (receive 3 m s = (true, w) → (∀ p, tabGet w.herd.delayOut m.srcDev = some p → p.1 ≠ msgField m 36 4) →
      exec (.delayResp m) s = .next w) ∧
    (∀ t3 a b t4 v, receive 3 m s = (true, w) → tabGet w.herd.delayOut m.srcDev = some (msgField m 36 4, t3, a, b) →
      t4 = ((msgField m 24 8 * 256 : Nat) + signedOf 32 (msgField m 32 4) : Int) →
      v = updHerd (fun h => { h with delayOut := tabDel h.delayOut m.srcDev }) w →
      (m.srcDev = w.herd.masterDev → w.herd.isMaster = false →
        exec (.delayResp m) s = .next (takeSample (((b - a) + (t4 - t3)) / 2) v)) ∧
      ((m.srcDev ≠ w.herd.masterDev ∨ w.herd.isMaster = true) → exec (.delayResp m) s = .next (updHerd (fun h => { h with
        pathDelay := tabSet h.pathDelay m.srcDev (wholeNs (((t4 - t3) + (time256 w - msgSent m)) / 2)) }) v)))

/-- SLIP_REQ, SLIP, GUARD_WINDOW_OPEN and BACKUP_BROADCAST: requests recorded, the window decided, slips applied once
(02_herd_time_and_frames.md). Where a clause rests on the model's own choice, those are log entries 5, 30, 48, 50 and
66. -/
def Obligations.SlipRows : Prop :=
  ∀ (s : State) (m : HerdMsg) (w : State),
    (receive 4 m s = (true, w) → (w.herd.isMaster = true ∨ w.herd.isDeputy = true) → exec (.slipReq m) s = .next (takeRequest
      { frame := msgField m 24 8, s := msgField m 32 8, dev := m.srcDev, cause := msgField m 40 1, engine := msgField m 41 1,
        queue := msgField m 42 2 } w)) ∧
    (receive 4 m s = (true, w) → w.herd.isMaster = false → w.herd.isDeputy = false → exec (.slipReq m) s = .next w) ∧
    (receive 5 m s = (true, w) → m.epoch ≠ w.herd.epoch → exec (.slip m) s = .next w) ∧
    (receive 5 m s = (true, w) → m.epoch = w.herd.epoch →
      (msgField m 32 8 ≤ w.herd.s → exec (.slip m) s = .next w) ∧
      (w.herd.s < msgField m 32 8 → exec (.slip m) s = .next (noteDecision (msgField m 24 8) (msgField m 32 8 - 1) true
        (applySlip (msgField m 24 8) (msgField m 32 8) (msgField m 42 1) (msgField m 44 2) (msgField m 40 2) w)))) ∧
    (∀ k z rs, s.boot.mode = .ready → (s.herd.isMaster = true ∨ s.herd.isDeputy = true) → k = nextTick s →
      z = advanceTo (tickTime s.herd k - guardFor s.herd k) s → rs = windowRecords s.herd k s.herd.s →
      ((windowDecided s.herd k s.herd.s).isSome = true → exec .guardWindowOpen s = .next z) ∧
      (windowDecided s.herd k s.herd.s = none → rs = [] → exec .guardWindowOpen s = .next (noteDecision k s.herd.s false z)) ∧
      (windowDecided s.herd k s.herd.s = none → rs ≠ [] → slipsOf s.herd k < s.herd.slipMax →
        (s.herd.isMaster = true → exec .guardWindowOpen s = .next (broadcastSlip k 0 rs z)) ∧
        (s.herd.isMaster = false → exec .guardWindowOpen s =
          .next (updHerd (fun h => { h with decided := (k, s.herd.s, true) :: h.decided }) z))) ∧
      (windowDecided s.herd k s.herd.s = none → rs ≠ [] → s.herd.slipMax ≤ slipsOf s.herd k →
        exec .guardWindowOpen s = .next (noteDecision k s.herd.s false (bump 1 10 0 rs.length z)))) ∧
    (∀ k y z rs, s.boot.mode = .ready → s.herd.isDeputy = true → k = nextTick s →
      y = decideWindow k (advanceTo (tickTime s.herd k - guardFor s.herd k) s) →
      z = advanceTo (tickTime y.herd k - guardFor y.herd k + backupNs y) y → rs = windowRecords z.herd k z.herd.s →
      (rs = [] ∨ z.herd.slipMax ≤ slipsOf z.herd k → exec .backupBroadcast s = .next z) ∧
      (rs ≠ [] → slipsOf z.herd k < z.herd.slipMax →
        exec .backupBroadcast s = .next (broadcastSlip k 1 rs (bump 1 14 0 1 z))))

/-- GUARD_POINT and FALLBACK_CHECK: a slip is requested for each frame queue behind its guard point, once per event
(02_herd_time_and_frames.md, 08_precision_guard.md). Where a clause rests on the model's own choice, those are log
entries 5 and 66. -/
def Obligations.GuardRows : Prop :=
  ∀ (s : State) (k z : Nat), k = nextTick s → z = tickTime s.herd k - guardFor s.herd k - guardU s.herd →
    (s.boot.mode ≠ .ready ∨ s.herd.inFrame = false → exec .guardPoint s = .next s ∧ exec .fallbackCheck s = .next s) ∧
    (fbEn s = false → exec .fallbackCheck s = .next s) ∧
    (s.boot.mode = .ready → s.herd.inFrame = true → ∀ w, w = advanceTo z s → exec .guardPoint s = .next
      ((frameQueuesWith w behindGuard).foldl (fun u e => requestSlip k
        (if keyEngine e.1 = .fe ∧ retransmits u (e.1 % 64) = true then 9 else 1 + (keyEngine e.1).code)
        (keyEngine e.1).code (e.1 % 64) u) w)) ∧
    (s.boot.mode = .ready → s.herd.inFrame = true → fbEn s = true → ∀ w,
      w = advanceTo (max (z - fbMarginNs s) (tickTime s.herd k - s.herd.period)) s → exec .fallbackCheck s = .next
      ((frameQueuesWith w (fun x => behindGuard x && x.repeated.isSome)).foldl (fun u e => requestFallback k e u) w)) ∧
    (∀ e t, t = requestSlip k 7 (keyEngine e.1).code (e.1 % 64) s → requestFallback k e s =
      if s.herd.sent.length < t.herd.sent.length then bump 2 11 (guardScope e.2.ctx e.2.program (e.2.repeated.getD 0xFF)) 1 t else t)

/-- SYNC_INTERVAL, TAKEOVER, FRAME_CHANGE, MASTER_LOST and HOLDOVER_EXPIRY: the master speaks, is replaced, or is given up
(02_herd_time_and_frames.md). Where a clause rests on the model's own choice, those are log entries 5, 46, 47, 48, 66
and 67. -/
def Obligations.MasterRows : Prop :=
  ∀ (s : State) (m : HerdMsg) (w : State),
    (inHerd s = true → s.herd.isMaster = true → w = advanceTo s.herd.nextSync s →
      exec .syncInterval s = .next (updHerd (fun h => { h with nextSync := h.time + syncNs w }) (sendSync w))) ∧
    (receive 6 m s = (true, w) → w.herd.isMaster = false →
      (w.herd.epoch < m.epoch → exec (.takeover m) s =
        .next (updHerd (fun h => { h with deputyDev := 0xFFFF, isDeputy := false }) (adoptMaster m.srcDev m.epoch w))) ∧
      (m.epoch ≤ w.herd.epoch → w.herd.masterDev ≠ devOf w → exec (.takeover m) s = .next w)) ∧
    (receive 7 m s = (true, w) → w.herd.isMaster = false →
      (m.srcDev = w.herd.masterDev → w.herd.k0 < msgField m 24 8 → exec (.frameChange m) s = .next (updHerd (fun h => { h with
        change := some (msgField m 24 8, msgField m 32 4, msgField m 36 4, msgField m 40 1) }) w)) ∧
      (m.srcDev ≠ w.herd.masterDev ∨ msgField m 24 8 ≤ w.herd.k0 → exec (.frameChange m) s = .next w)) ∧
    (∀ z, inHerd s = true → s.herd.isDeputy = true → (masterUnreachable s || beforeTick (missedBy s) s) = true →
      exec .masterLost s = .next z →
      z.herd.epoch = (s.herd.epoch + 1) % 2 ^ 32 ∧ z.herd.isMaster = true ∧ z.herd.isDeputy = false ∧ z.herd.masterDev = devOf s ∧
      z.herd.deputyDev = 0xFFFF ∧ z.herd.setGuard = s.herd.guard ∧ z.herd.holdover = false ∧
      s.herd.time < z.herd.nextSync ∧ z.herd.nextSync % (8000 * 2 ^ intervalReg s) = 0 ∧ z.mem = s.mem ∧ z.host = s.host) ∧
    (∀ n u, inHerd s = true → s.herd.isDeputy = true → (masterUnreachable s || beforeTick (missedBy s) s) = true →
      u = (if masterUnreachable s then s else advanceTo (missedBy s) s) → n = 8000 * 2 ^ intervalReg u →
      w = updHerd (fun h => { h with
        epoch := (h.epoch + 1) % 2 ^ 32, isMaster := true, isDeputy := false, deputyDev := 0xFFFF, masterDev := devOf u,
        setGuard := h.guard, bcastNs := none, holdover := false, samples := [], nextSync := (h.time / n + 1) * n }) u →
      exec .masterLost s = .next (timeBroadcast (broadcastHerd (herdOthers w) 6
        (natLe 8 u.herd.lastOrigin ++ natLe 2 u.herd.masterDev) w))) ∧
    ((masterUnreachable s || beforeTick (missedBy s) s) = false → exec .masterLost s = .next s) ∧
    (s.boot.mode = .ready → s.herd.isMaster = false → beforeTick (holdoverEnd s) s = true →
      exec .holdoverExpiry s = .next (leaveToHerd (advanceTo (holdoverEnd s) s))) ∧
    (s.boot.mode ≠ .ready ∨ s.herd.isMaster = true ∨ beforeTick (holdoverEnd s) s = false → exec .holdoverExpiry s = .next s)

/-- JOIN, JOIN_ACK, JOIN_RESEND, HERD_JOIN_TIMEOUT and HERD_FORM: candidates kept and answered, admission, refusal,
formation (02_herd_time_and_frames.md, 21_start_up_and_recovery.md). Where a clause rests on the model's own choice,
those are log entries 9, 46, 48 and 66. -/
def Obligations.JoinRows : Prop :=
  ∀ (s : State) (m : HerdMsg) (w : State),
    (receive 8 m s = (true, w) → w.herd.isMaster = false → exec (.join m) s = .next w) ∧
    (receive 8 m s = (true, w) → w.herd.isMaster = true →
      (m.epoch < w.herd.epoch → exec (.join m) s = .next (sendHerd m.srcDev 9 (natLe 1 2) w)) ∧
      (w.herd.epoch ≤ m.epoch → w.herd.candidates.any (fun c => c.1 == m.srcDev) = true → exec (.join m) s = .next w) ∧
      (w.herd.epoch ≤ m.epoch → w.herd.candidates.any (fun c => c.1 == m.srcDev) = false →
        exec (.join m) s =
          .next (updHerd (fun h => { h with candidates := h.candidates ++ [(m.srcDev, m.body.take 32)] }) (dropCopies m.srcDev w)))) ∧
    (receive 9 m s = (true, w) → w.boot.mode = .herd → w.herd.joinSent ≠ none → w.herd.admitted = false → m.srcDev = w.herd.masterDev →
      (msgField m 24 1 = 0 → exec (.joinAck m) s = .next (updHerd (fun h => { h with admitted := true }) w)) ∧
      (msgField m 24 1 = 1 → w.herd.rejoining = true →
        exec (.joinAck m) s = .next (postEvent 0 8 0 0xFFFF (natLe 1 2) (backToTrained 0 0 w))) ∧
      (msgField m 24 1 = 1 → w.herd.rejoining = false → exec (.joinAck m) s = .next (backToTrained 3 (0x700 + 24) w)) ∧
      (msgField m 24 1 = 2 → exec (.joinAck m) s = .next (updHerd (fun h => { h with joinSent := none }) w)) ∧
      (2 < msgField m 24 1 → exec (.joinAck m) s = .next (bump 1 22 0 1 w))) ∧
    (s.boot.mode = .herd → s.herd.joinSent.isSome = true → s.herd.admitted = false → exec .joinResend s = .next (sendJoin s)) ∧
    (s.boot.mode = .herd → s.herd.joinCmd.isSome = true → s.herd.admitted = false → exec .herdJoinTimeout s =
      .next (backToTrained 8 (if s.herd.locked then s.herd.masterDev else 0xFFFFFFFF) s)) ∧
    (∀ y z, s.boot.mode = .herd → s.boot.straps.bell = 1 → s.herd.heard = false → s.herd.joinCmd.isSome = true → y = stepTo 0 s →
      z = updHerd (fun h => { h with
        epoch := 1, masterDev := devOf y, isMaster := true, locked := true, heard := true, t0 := 0, k0 := 0, s := 0,
        period := periodReg y.regs.hrtFrame * 1000, setGuard := guardReg y.regs.hrtFrame * 1000,
        slipMax := slipMaxReg y.regs.hrtFrame, interval := intervalReg y, nextSync := 0, slipRun := (0, 0) }) y →
      exec .herdForm s = .next (tickWork 0 (enterReady (emit (.syncPulse 0) (reportGuard { z.herd with isMaster := false }
        (updHerd (fun h => { h with gminUs := gminOf z, guard := max h.setGuard (gminOf z * 1000) }) z))))))

/-- TICK: the stores before it, the window decided by a master, a held tick does not occur, admission, the frame opened
(02_herd_time_and_frames.md, 17_one_frame_end_to_end.md). Where a clause rests on the model's own choice, those are log
entries 5, 14, 49 and 50. -/
def Obligations.TickRow : Prop :=
  ∀ (st : List HostStore) (s w : State), w = hostStores st s →
    (w.boot.mode ≠ .ready → (w.boot.mode = .herd → w.herd.heard = false) → exec (.tick st) s = .next w) ∧
    (∀ k d, k = nextTick w → d = (if w.boot.mode ≠ .ready then w
        else if w.herd.isMaster then decideWindow k (advanceTo (tickTime w.herd k - guardFor w.herd k) w)
        else if w.herd.isDeputy ∧ backupNs w ≤ guardFor w.herd k then backupSlip k w else w) →
      (w.boot.mode = .ready ∨ (w.boot.mode = .herd ∧ w.herd.heard = true)) →
      (d.herd.s ≠ w.herd.s → exec (.tick st) s = .next d) ∧
      (∀ u v, d.herd.s = w.herd.s → u = emit (.syncPulse k) (advanceTo (tickTime d.herd k) d) →
        v = (if u.herd.admitted then enterReady u else u) →
        (v.boot.mode = .ready → v.herd.diverged = false → exec (.tick st) s = .next (tickWork k v)) ∧
        (v.boot.mode = .ready → v.herd.diverged = true →
          exec (.tick st) s = .next (tickAgain k true (updHerd (fun h => { h with diverged := false }) v))) ∧
        (∀ y, v.boot.mode ≠ .ready → y = tickSchedule k (updHerd (fun h => { h with frame := k }) v) →
          exec (.tick st) s = .next (if portUp y then readAllDoorbells y else y))))

/-- HERD_JOIN, HERD_LEAVE and FRAME_POLICY: the plan judged and held, the herd left, a frame change set by the master
(02_herd_time_and_frames.md, 05_fleos_command_set.md, 15_worl_links.md, 21_start_up_and_recovery.md). Where a clause
rests on the model's own choice, those are log entries 9, 11, 48, 51 and 66. -/
def Obligations.HerdCommands : Prop :=
  ∀ (s : State) (src : CmdSrc) (c : FleosCmd) (w : State), w = running c s →
    (runsNow s src 0x11 c → s.boot.straps.linksplit = 6 → exec (.herdJoin src) s = .next (finishNoRes c.order 0xB w)) ∧
    (∀ a n off r, turnOf s src 0x11 c → a = fieldAt c.desc 24 8 → n = fieldAt c.desc 32 4 → hostBad s a n = false →
      worstDefect (planDefects s (hostBytes s a n)) = some (off, r) →
      exec (.herdJoin src) s = .next (finish c.order 3 (r * 256 + 24) off s)) ∧
    (∀ a n b, runsNow s src 0x11 c → s.boot.straps.linksplit ≠ 6 → a = fieldAt c.desc 24 8 → n = fieldAt c.desc 32 4 →
      b = hostBytes w a n →
      (hostBad w a n = true → exec (.herdJoin src) s = .next (finishPoisoned c a w)) ∧
      (∀ p ds did z, hostBad w a n = false → p = readPlan w b → ds = planDiffs w p →
        did = diffId ds → z = updHerd (fun h => { h with plan := some p, planDigest := p.digest }) w →
        (ds ≠ [] → fieldAt c.desc 17 1 = 0 → exec (.herdJoin src) s = .next (finish c.order 3 (0x700 + 17) did z)) ∧
        (ds ≠ [] → fieldAt c.desc 17 1 ≠ 0 → fieldAt c.desc 20 4 ≠ did →
          exec (.herdJoin src) s = .next (finish c.order 3 (0x700 + 20) did z)) ∧
        (ds = [] ∨ (fieldAt c.desc 17 1 ≠ 0 ∧ fieldAt c.desc 20 4 = did) →
          exec (.herdJoin src) s = .next (enterHerd c.order did (disableDiffs ds z))))) ∧
    (runsNow s src 0x12 c → fieldAt c.desc 17 1 = 0 →
      (frameRuns w = true → exec (.herdLeave src) s = .next (finishNoRes c.order 0xA w)) ∧
      (frameRuns w = false → exec (.herdLeave src) s = .next (finishOk c.order 0 (leaveHerd (slipPrompts w))))) ∧
    (runsNow s src 0x12 c → fieldAt c.desc 17 1 ≠ 0 →
      (anyRunning (requestAll w) = true → exec (.herdLeave src) s = .next (requestAll w)) ∧
      (anyRunning (requestAll w) = false →
        exec (.herdLeave src) s = .next (finishOk c.order 0 (leaveHerd (slipPrompts (stopAll (requestAll w))))))) ∧
    (runsNow s src 0x13 c → s.herd.isMaster = false → exec (.framePolicy src) s = .next (finishNoRes c.order 0xC w)) ∧
    (∀ p g m k, runsNow s src 0x13 c → s.herd.isMaster = true → policySettings w c.desc = (p, g, m) →
      k = max (nextTick w) (ceilTick w.herd (w.herd.time + 32 * syncNs w)) →
      exec (.framePolicy src) s = .next (finishOk c.order k (sendFrameChange (updHerd (fun h => { h with change := some (k, p, g, m) }) w))))

/-- Ring indices are counts modulo 2^32; entry i lies in slot i mod 2^n, with PHASE ((i >> n) & 1) xor 1 (R70). -/
def Obligations.IndexArithmetic : Prop :=
  (∀ a b : Nat, a < 2 ^ 32 → b < 2 ^ 32 → (diff32 a b : Int) = ((a : Int) - b) % 2 ^ 32) ∧
  (∀ n i : Nat, phaseBit n i = ((i >>> n) &&& 1) ^^^ 1) ∧
  (∀ n i : Nat, i < 2 ^ n → phaseBit n i ≠ 0) ∧
  (∀ (s : State) (fn cn index tag st op d r tm : Nat) (c : Ring), ringAt s fn cn = some c →
    insecureAt s (c.base + index % 2 ^ c.log2 * 32) = false →
    hostBytes (writeCompletion fn cn index tag st op d r tm s) (c.base + index % 2 ^ c.log2 * 32) 32 =
      completionBytes index tag st (phaseBit c.log2 index) op d r tm)

/-- Doorbell reads: on ENABLE, on a nudge that covers offset 0, and between ticks; without a working host port only the host
stores (03_host_rings_and_acceptance.md, 24_set_up_registers.md). Where a clause rests on the model's own choice, those
are log entries 27, 28, 38 and 40. -/
def Obligations.DoorbellRows : Prop :=
  ∀ (s : State) (st : List HostStore) (fn off size : Nat),
    (portUp (hostStores st s) = true →
      exec (.doorbellRead fn st) s = .next (readDoorbells fn (hostStores st s)) ∧
      (off = 0 → size ≠ 0 → fnUp (hostStores st s) fn = true →
        exec (.ringNudge fn off size st) s = .next (readDoorbells fn (hostStores st s))) ∧
      (off ≠ 0 → exec (.ringNudge fn off size st) s = .next (hostStores st s)) ∧
      (readsOnTicks (hostStores st s) = false →
        exec (.doorbellPoll st) s = .next ((List.range 17).foldl (fun t f => readDoorbells f t) (hostStores st s)))) ∧
    (portUp (hostStores st s) = false → ∀ i ∈ [Instr.doorbellRead fn st, .ringNudge fn off size st, .doorbellPoll st],
      exec i s = .next (hostStores st s))

/-- A doorbell record: ignored as a whole and counted once for each value when reserved bits are set or its index cannot be
right; else taken (03_host_rings_and_acceptance.md). Where a clause rests on the model's own choice, those are log
entries 27 and 68. -/
def Obligations.DoorbellRecord : Prop :=
  ∀ (s : State) (fn n v : Nat), fn < s.fns.length → v = doorbell s fn n → (fnOf s fn).walkFailed.contains n = false →
    hostUnread s ((fnOf s fn).dbBase + 8 * n) 8 = false →
    ((bellClean v = false ∨ ∃ r, ringAt s fn n = some r ∧ ¬(r.phase = 2 ∧ bellOpen v = true) ∧ bellFits r (bellIndex v) = false) →
      (tabGet (fnOf s fn).ignored n = some v → takeBell fn n s = s) ∧
      (tabGet (fnOf s fn).ignored n ≠ some v → takeBell fn n s = postEvent fn 2 0 n (natLe 4 v) (updFn fn (fun f => { f with
        ignored := tabSet f.ignored n v, ignoredCount := f.ignoredCount + 1 }) s))) ∧
    (∀ r, bellClean v = true → bellOpen v = true → ringAt s fn n = some r → r.phase = 2 → takeBell fn n s = s) ∧
    (∀ r, bellClean v = true → bellOpen v = true → ringAt s fn n = some r → r.type = 1 → r.phase = 1 →
      diff32 (bellIndex v) r.accepted ≤ 2 ^ r.log2 →
      (ringAt (takeBell fn n s) fn n).map (fun x => (x.hostIndex, x.accepted, x.completed)) =
        some (bellIndex v, r.accepted, r.completed) ∧
      tabGet (fnOf (takeBell fn n s) fn).ignored n = none ∧
      ∀ g m, (g ≠ fn ∨ m ≠ n) → ringAt (takeBell fn n s) g m = ringAt s g m)

/-- DESCRIPTOR_INTAKE takes the next ring's descriptors in order and publishes ACCEPTED in the ring's status record
(03_host_rings_and_acceptance.md). Where a clause rests on the model's own choice, those are log entries 11, 28 and 40. -/
def Obligations.IntakeRow : Prop :=
  ∀ (s : State) (st : List HostStore) (w : State), w = hostStores st s →
    (portUp w = false → exec (.descriptorIntake st) s = .next w) ∧
    (portUp w = true → intakeNext w = none → exec (.descriptorIntake st) s = .next w) ∧
    (∀ fn n k t, portUp w = true → intakeNext w = some (fn, n, k) → t = publish fn n (acceptMany fn n k w) →
      exec (.descriptorIntake st) s = .next t ∧
      ∀ r, ringAt (acceptMany fn n k w) fn n = some r → r.type = 1 → insecureAt (acceptMany fn n k w) r.status = false →
        ringAt t fn n = some r ∧ hostBytes t r.status 4 = natLe 4 r.accepted ∧ hostBytes t (r.status + 4) 4 = natLe 4 r.completed ∧
        hostBytes t (r.status + 8) 1 = natLe 1 r.phase ∧ hostBytes t (r.status + 12) 4 = natLe 4 r.resets)

/-- An opening is refused with its reason, resumes a ring in use before the reset, or gives the ring the base its doorbell
names (03_host_rings_and_acceptance.md). Where a clause rests on the model's own choice, those are log entries 27 and
68. -/
def Obligations.RingOpening : Prop :=
  ∀ (s : State) (fn n i : Nat) (e k : List Byte) (w : State), fn < s.fns.length → e = dirEntry s fn n →
    k = dirEntry s fn (fieldAt e 2 2) → i = bellIndex (doorbell s fn n) → w = noteSeen fn n s →
    hostUnread s ((fnOf s fn).dirBase + 64 * n) 64 = false →
    (entryReason e ≠ 0 → openRing fn n s = refuseRing fn n (entryReason e) w) ∧
    (entryReason e = 0 → fieldAt e 0 1 = 1 → (∀ c, ringAt s fn (fieldAt e 2 2) = some c →
        c.type ≠ 2 ∨ c.phase ≠ 1 ∨ c.log2 ≠ fieldAt e 1 1 ∨ c.pair ≠ n) → openRing fn n s = refuseRing fn n 5 w) ∧
    (entryReason e = 0 → fieldAt e 0 1 = 3 → (eventRing (fnOf s fn)).isSome = true →
      openRing fn n s = refuseRing fn n 6 w) ∧
    (∀ c, entryReason e = 0 → fieldAt e 0 1 = 1 → ringAt s fn (fieldAt e 2 2) = some c → c.type = 2 → c.phase = 1 →
      c.log2 = fieldAt e 1 1 → c.pair = n →
      (c.accepted ≠ i → openRing fn n s = refuseRing fn n 7 w) ∧
      (c.accepted = i → openRing fn n s = publish fn n (setRing fn n (entryRing e 1 i) w))) ∧
    (entryReason e = 0 → fieldAt e 0 1 = 3 → eventRing (fnOf s fn) = none →
      (firstRead s fn n = true → statusLive s e = true → openRing fn n s = resumeEvent fn n e w) ∧
      (firstRead s fn n = false ∨ statusLive s e = false →
        openRing fn n s = publish fn n (setRing fn n (entryRing e 1 i) w))) ∧
    (entryReason e = 0 → fieldAt e 0 1 = 2 →
      (firstRead s fn n = true → fieldAt k 0 1 = 1 → entryReason k = 0 → statusLive s k = true →
        openRing fn n s = updFn fn (fun f => { f with seen := f.seen.filter (fun x => decide (x ≠ n)) }) w) ∧
      (firstRead s fn n = false ∨ fieldAt k 0 1 ≠ 1 ∨ entryReason k ≠ 0 ∨ statusLive s k = false →
        openRing fn n s = setRing fn n (entryRing e 1 i) w)) ∧
    (∀ x, ringAt (setRing fn n x w) fn n = some x ∧ (∀ g m, (g ≠ fn ∨ m ≠ n) → ringAt (setRing fn n x w) g m = ringAt s g m) ∧
      ∀ g m, ringAt (publish fn n (setRing fn n x w)) g m = ringAt (setRing fn n x w) g m)

/-- COMPLETION_RECORD writes the record of a ring's oldest command once it has completed, and none before
(03_host_rings_and_acceptance.md). Where a clause rests on the model's own choice, those are log entries 28 and 40. -/
def Obligations.RecordRow : Prop :=
  ∀ (s : State) (fn n : Nat) (r k : Ring) (c : FleosCmd), portUp s = true → fn < s.fns.length → ringAt s fn n = some r →
    r.type = 1 → r.pair ≠ n → ringAt s fn r.pair = some k → cmdOf s (.ring fn n r.completed) = some c →
    (c.isOpen = true → r.completed ≠ r.accepted → exec (.completionRecord fn n) s = .next s) ∧
    (∀ st d res a, c.phase = .done st d res → a = k.base + r.completed % 2 ^ k.log2 * 32 →
      insecureAt s a = false → (a + 32 ≤ r.status ∨ r.status + 64 ≤ a) → ∃ t, exec (.completionRecord fn n) s = .next t ∧
      hostBytes t a 32 = completionBytes r.completed (fieldAt c.desc 4 4) st (phaseBit k.log2 r.completed) c.opcode d res c.time ∧
      t.cmds = s.cmds.filter (fun x => decide (x.order ≠ c.order)))

/-- MSIX_MODERATION_TIMER signals a ring's gathered records; MSIX_UNMASK sends exactly one message for a pending bit
(03_host_rings_and_acceptance.md). Where a clause rests on the model's own choice, those are log entries 6 and 68. -/
def Obligations.Interrupts : Prop :=
  (∀ (s : State) (fn n : Nat) (r : Ring), ringAt s fn n = some r → r.irqEn = true → r.modUs ≠ 0 → r.unsignalled ≠ 0 →
    exec (.msixModerationTimer fn n) s = .next
      (signalVector fn r.vector (updRing fn n (fun x => { x with unsignalled := 0 }) s))) ∧
  (∀ (s : State) (fn v : Nat), fn < s.fns.length → ((msixOf (fnOf s fn) v).masked = true →
      signalVector fn v s = updFn fn (fun f => { f with msix := tabSet f.msix v { msixOf f v with pendingBit := true } }) s) ∧
    ((msixOf (fnOf s fn) v).masked = false →
      (insecureAt s (msixOf (fnOf s fn) v).addr = false → signalVector fn v s = { s with out := s.out ++ [.msix fn v] }) ∧
      (insecureAt s (msixOf (fnOf s fn) v).addr = true → signalVector fn v s = holdReq (.message fn v) s))) ∧
  (∀ (s : State) (fn v : Nat) (e : MsixEntry), fnUp s fn = true → v < 64 → fn < s.fns.length → e = msixOf (fnOf s fn) v →
    insecureAt s e.addr = false → ∃ t, exec (.msixUnmask fn v) s = .next t ∧
      t = { s with fns := s.fns.modify fn (fun f => { f with msix := tabSet f.msix v { e with masked := false, pendingBit := false } })
                   out := s.out ++ (if e.masked && e.pendingBit then [Out.msix fn v] else []) })

/-- RESET_WALK, FUNCTION_LEVEL_RESET and VF_ENABLE: a walk takes one ring at a time, a reset closes every ring of the
function (03_host_rings_and_acceptance.md, 23_authority_identity_management.md). Where a clause rests on the model's own
choice, those are log entries 6, 27 and 58. -/
def Obligations.ResetRows : Prop :=
  (∀ (s : State) (fn : Nat), portUp s = true → (fnOf s fn).enable = true →
    (walksLeft s fn = [] → exec (.resetWalk fn) s = .next (updFn fn (fun f => { f with walking := false }) s)) ∧
    (∀ n, walksLeft s fn = [n] →
      exec (.resetWalk fn) s = .next (updFn fn (fun f => { f with walking := false }) (walkRing fn n s))) ∧
    (∀ n m rest, walksLeft s fn = n :: m :: rest → exec (.resetWalk fn) s = .next (walkRing fn n s))) ∧
  (∀ (s : State) (fn : Nat), portUp s = true → fnUp s fn = true → fn ≠ 0 →
    (flrContexts s fn).all (ctxStopped ((flrContexts s fn).foldl (fun s c => stopCtx c s) s)) = true →
    ∃ t, exec (.functionLevelReset fn) s = .next t ∧
      ∀ f, t.fns[fn]? = some f → f.rings = [] ∧ f.refused = [] ∧ f.walking = false ∧ f.enable = false) ∧
  (∀ (s : State) (e : Bool) (n : Nat), n ≤ 16 → (s.boot.vfEnable = false ∨ (e = true ∧ s.boot.numVfs ≤ n)) →
    exec (.vfEnable e n) s = .next { s with boot := { s.boot with vfEnable := e, numVfs := n } })

/-- NOP, END and FRAME_LOOP retire as they start: the next command, READY at the end, or command 0 at the next tick
(04_engines_queues_and_command_lists.md). Where a clause rests on the model's own choice, those are log entries 56 and
69. -/
def Obligations.CommonOpcodes : Prop :=
  ∀ (s : State) (e : Engine) (q : Nat) (x : Queue) (c : Cmd), waitingHead s e q = some (x, c) →
    (startCheck s e x c = .notYet → ∀ i ∈ [Instr.nop e q, .endList e q, .frameLoop e q, .commandStart e q],
      exec i s = .next s) ∧
    (startCheck s e x c = .go →
      (c.opcode = 0 → exec (.nop e q) s = .next (settleQueue e q (retireHead e q x c (countStart c s)))) ∧
      (c.opcode = 1 → exec (.endList e q) s = .next (settleQueue e q (updQueue e q
        (fun y => if y.state = 4 then y else { y with state := 1, head := 0 }) (retireHead e q x c (countStart c s))))) ∧
      (c.opcode = 2 → exec (.frameLoop e q) s = .next (settleQueue e q (updQueue e q
        (fun y => { y with head := 0, awaitTick := true }) (retireHead e q x c (countStart c s))))))

/-- Retirement: the event is counted once, and the queue holds or waits at the next command
(04_engines_queues_and_command_lists.md). -/
def Obligations.RetiredQueue : Prop :=
  ∀ (s : State) (e : Engine) (q : Nat) (x : Queue) (c : Cmd) (t : State), t = retireHead e q x c s →
    queueAt t e q = some (afterRetire x c) ∧
    (afterRetire x c).state = (if x.stopReq.isSome then 4 else 2) ∧
    (afterRetire x c).head = (if x.late then 0 else x.head + 1) ∧
    (∀ h ∈ t.eng.held, ¬(h.1 = e ∧ h.2.2 = q)) ∧
    t.tally.discardedSignals = (if c.signalFlag && x.late then s.tally.discardedSignals + 1 else s.tally.discardedSignals) ∧
    (∀ k, k ≠ queueKey e q → tabGet t.eng.queues k = tabGet s.eng.queues k) ∧
    tabNat t.eng.events c.signalEvent = (if c.signalFlag && !x.late then (tabNat s.eng.events c.signalEvent + 1) % 2 ^ 32
      else tabNat s.eng.events c.signalEvent) ∧
    (∀ n, n ≠ c.signalEvent → tabNat t.eng.events n = tabNat s.eng.events n)

/-- COMMAND_START, TASK_ISSUE and COMMAND_RETIRE: a command runs, issues its tasks, and retires when its work is done
(04_engines_queues_and_command_lists.md). Where a clause rests on the model's own choice, those are log entries 56 and
69. -/
def Obligations.QueueEngine : Prop :=
  (∀ (s : State) (e : Engine) (q : Nat) (x : Queue) (c : Cmd), waitingHead s e q = some (x, c) → startCheck s e x c = .go →
    2 < c.opcode → ∀ y, y = { x with state := 3, cur := some c, issued := 0, finished := 0, worked := false, defect := none, rung := 0, reissue := [] } →
    exec (.commandStart e q) s = .next (if c.tasks = 0 then settleQueue e q (retireHead e q y c (countStart c s))
      else setQueue e q y (countStart c s))) ∧
  (∀ (s : State) (e : Engine) (q : Nat) (x : Queue) (c : Cmd), queueAt s e q = some x → headOf x = some c → hasTask x = true →
    lowerFirst s e q = false → s.pwr.stopped = false →
    (issueUnit s e q c = none → exec (.taskIssue e q) s = .next s) ∧
    (∀ u, issueUnit s e q c = some u → e ≠ .pe → e ≠ .ge → ∃ t, exec (.taskIssue e q) s = .next t ∧ (e, u, q) ∈ t.eng.held ∧
      queueAt t e q = some { x with issued := x.issued + 1 } ∧ t.eng.tasks = s.eng.tasks) ∧
    (∀ u, (e = .pe ∨ e = .ge) → issueUnit s e q c = some u → ∃ t k, exec (.taskIssue e q) s = .next t ∧
      t.eng.tasks = s.eng.tasks ++ [k] ∧ k.engine = e ∧ k.unit = u ∧ k.queue = q ∧ k.run = none ∧ k.failed = false ∧
      (x.reissue = [] → k.index = x.issued ∧ (queueAt t e q).map (·.issued) = some (x.issued + 1)))) ∧
  (∀ (s : State) (e : Engine) (q : Nat) (x : Queue) (c : Cmd), queueAt s e q = some x → headOf x = some c → x.state = 3 →
    (workDone s e q x c = true → exec (.commandRetire e q) s = .next (settleQueue e q (retireHead e q x c s))) ∧
    (workDone s e q x c = false → exec (.commandRetire e q) s = .next s))

/-- The first common check of R120 that fails decides the status; the command has no other effect (05_fleos_command_set.md).
Where a clause rests on the model's own choice, those are log entries 9, 11 and 12. -/
def Obligations.ChecksDecide : Prop :=
  ∀ (s : State) (i : Instr) (op : Nat) (src : CmdSrc) (c : FleosCmd), fleosRow i = some (op, src) →
    (∀ st d r, turnOf s src op c → checkRun s c = some (st, d, r) → exec i s = .next (finish c.order st d r s)) ∧
    (cmdOf s src = some c → c.phase = .waiting → heldBack s c = true ∨ hostWaits s c = true → exec i s = .next s) ∧
    (∀ st d r, cmdOf s src = some c → c.phase = .done st d r → exec i s = .next s)

/-- Completing a command: a ring command keeps status and time for its record, a management command is answered at once
(03_host_rings_and_acceptance.md, 05_fleos_command_set.md). Where a clause rests on the model's own choice, that is log
entry 9. -/
def Obligations.CommandCompletes : Prop :=
  ∀ (s : State) (order st d r : Nat) (c : FleosCmd), cmdNo s order = some c → c.isOpen = true →
    (∀ fn rn ix, c.src = .ring fn rn ix → finish order st d r s =
      { s with cmds := s.cmds.map (fun x => if x.order = order then { x with phase := .done st d r, time := stampOf s } else x) }) ∧
    (∀ p, c.src = .mgt p → ∃ t, finish order st d r s = t ∧ t.cmds = s.cmds.filter (fun x => x.order ≠ order) ∧
      t.mgt.ports = s.mgt.ports.modify p (fun m => { m with outstanding := none }) ∧
      t.out = s.out ++ (if bitOf s.regs.mgtCtrl p then [Out.mgt p 1 0 c.mgtTag
        (completionBytes 0 (fieldAt c.desc 4 4) st 0 c.opcode d r (stampOf s))] else []) ∧
      t = { s with cmds := t.cmds, mgt := { s.mgt with ports := t.mgt.ports }, out := t.out })

/-- CTX_CREATE makes the context with its quotas or says why not; CTX_DESTROY stops its queues, then ends the context
(05_fleos_command_set.md, 12_memory_tiers.md). Where a clause rests on the model's own choice, those are log entries 9,
23 and 59. -/
def Obligations.Contexts : Prop :=
  ∀ (s : State) (src : CmdSrc) (c : FleosCmd),
    (runsNow s src 1 c →
      ((ctxAt s c.ctx).isSome = true → exec (.ctxCreate src) s = .next (finish c.order 4 0xA00 0 (running c s))) ∧
      (ctxAt s c.ctx = none → quotasFit s c.desc = false →
        exec (.ctxCreate src) s = .next (finish c.order 4 0x900 0 (running c s))) ∧
      (ctxAt s c.ctx = none → quotasFit s c.desc = true →
        exec (.ctxCreate src) s = .next (finish c.order 0 0 0 { flushCache (running c s) with
          contexts := tabSet (flushCache (running c s)).contexts c.ctx (newContext c.desc) }))) ∧
    (runsNow s src 2 c →
      (ctxStopped (stopCtx c.ctx (running c s)) c.ctx = false →
        exec (.ctxDestroy src) s = .next (stopCtx c.ctx (running c s))) ∧
      (ctxStopped (stopCtx c.ctx (running c s)) c.ctx = true → ∃ t, exec (.ctxDestroy src) s = .next t ∧
        tabGet t.contexts c.ctx = none))

/-- REGION_MAP and REGION_UNMAP: at once outside READY, at the next tick in READY; what turns a mapping away
(05_fleos_command_set.md, 21_start_up_and_recovery.md). Where a clause rests on the model's own choice, those are log
entries 24 and 59. -/
def Obligations.Regions : Prop :=
  ∀ (s : State) (src : CmdSrc) (c : FleosCmd) (x : Context), ctxAt s c.ctx = some x →
    (runsNow s src 3 c → ∀ reg r, reg = fieldAt c.desc 18 2 → r = mappedRegion c.desc →
      (regionClash s x reg r = true → exec (.regionMap src) s = .next (finish c.order 4 0xA00 0 (running c s))) ∧
      (regionClash s x reg r = false → regionOver s x r = true →
        exec (.regionMap src) s = .next (finish c.order 4 0x900 0 (running c s))) ∧
      (regionClash s x reg r = false → regionOver s x r = false →
        ∀ t, t = updCtx c.ctx (fun y => { y with regions := tabSet y.regions reg r }) (running c s) →
        exec (.regionMap src) s = .next (if s.boot.mode = .ready then { t with due := s.due ++ [.regionIn c.ctx reg c.order] }
          else finish c.order 0 0 0 (updCtx c.ctx (fun y => { y with
            regions := tabUpd y.regions reg (fun k => { k with live := true }) }) t)))) ∧
    (runsNow s src 4 c → ∀ reg, reg = fieldAt c.desc 18 2 →
      (tabGet x.regions reg = none → exec (.regionUnmap src) s = .next (finish c.order 3 0x512 0 (running c s))) ∧
      (∀ r, tabGet x.regions reg = some r → namesRegion (running c s) x r = true →
        exec (.regionUnmap src) s = .next (finish c.order 4 0xA00 0 (running c s))) ∧
      (∀ r, tabGet x.regions reg = some r → namesRegion (running c s) x r = false →
        exec (.regionUnmap src) s = .next (if s.boot.mode = .ready
          then { updCtx c.ctx (fun y => { y with regions := tabUpd y.regions reg (fun k => { k with leaving := true }) })
                  (running c s) with due := s.due ++ [.regionOut c.ctx reg c.order] }
          else regionGone c.ctx reg c.order (running c s))))

/-- PROGRAM_LOAD, PROGRAM_START, PROGRAM_STOP and RESUME: what each does to a program and its queues
(05_fleos_command_set.md, 19_power_and_cooling.md). Where a clause rests on the model's own choice, those are log
entries 17, 18, 19, 22 and 70. -/
def Obligations.Programs : Prop :=
  ∀ (s : State) (src : CmdSrc) (c : FleosCmd),
    (∀ x im base, runsNow s src 7 c → ctxAt s c.ctx = some x → hostBad s (fieldAt c.desc 24 8) (fieldAt c.desc 32 4) = false →
      readImage (running c s) c.ctx (hostBytes s (fieldAt c.desc 24 8) (fieldAt c.desc 32 4)) = .inr im →
      loadClash (running c s) c.ctx (fieldAt c.desc 18 2) x im = false →
      freeEvents s (c.ctx, fieldAt c.desc 18 2) im.events = some base → loadOver (fieldAt c.desc 18 2) x im = false →
      exec (.programLoad src) s =
        .next (finish c.order 0 0 base (replaceProgram c.ctx (fieldAt c.desc 18 2) base x im (running c s)))) ∧
    (∀ p, runsNow s src 8 c → progAt s c.ctx (fieldAt c.desc 18 2) = some p →
      s.boot.mode = .ready ∨ (p.isFrame = false ∧ usesFrame s p = false) →
      (progQueues s p).all (fun q => q.state == 1 || q.state == 4) = true → mayStart s c p = true →
      exec (.programStart src) s = .next (goProgram c.ctx (fieldAt c.desc 18 2) c.order p (running c s))) ∧
    (∀ p, runsNow s src 9 c → progAt s c.ctx (fieldAt c.desc 18 2) = some p → launchCome s c = true →
      exec (.programStop src) s =
        .next (haltProgram c.ctx (fieldAt c.desc 18 2) c.order (fieldAt c.desc 17 1) p (running c s))) ∧
    (∀ p, runsNow s src 0x1B c → fieldAt c.desc 17 1 = 1 → progAt s c.ctx (fieldAt c.desc 18 2) = some p →
      exec (.resume src) s = .next (finish c.order 0 0 0 (primeProgram c.ctx (fieldAt c.desc 18 2)
        (setQueuesOf p (fun q => if q.state = 4 then { q with
            state := 2, head := if p.isFrame then 0 else q.head, awaitTick := p.isFrame } else q) (running c s))))) ∧
    (runsNow s src 0x1B c → fieldAt c.desc 17 1 = 0 → s.pwr.stopped = true → s.boot.flowLow = false →
      exec (.resume src) s = .next (finish c.order 0 0 0 (noteReasons ((s.contexts.map (·.1)).foldl
        (fun s x => primeContext x s) { running c s with
          pwr := { s.pwr with stopped := false, clock := 0 }
          mem := { s.mem with stackStates := s.mem.stackStates.map (fun k => { k with selfRefresh := false }) } }))))

/-- STREAM_OPEN, STREAM_CLOSE, STREAM_ABORT, PROMPT_SUBMIT and BATCH_SET: what each does when it runs
(05_fleos_command_set.md, 09_generation_engine.md). Where a clause rests on the model's own choice, those are log
entries 15, 22, 28, 59 and 72. -/
def Obligations.StreamCommands : Prop :=
  ∀ (s : State) (src : CmdSrc) (c : FleosCmd) (number : Nat), number = fieldAt c.desc 20 4 →
    (∀ pa b sa n slot use, runsNow s src 0xA c → pa = fieldAt c.desc 48 8 → b = hostBytes s pa 256 → sa = fieldAt b 32 8 →
      n = min 8 (fieldAt b 7 1) →
      (s.streams.filter (fun x => x.2.ctx == c.ctx)).length < ((ctxAt s c.ctx).map (·.streamQuota)).getD 0 →
      s.streams.length < 65536 → hostBad s pa 256 = false → (n = 0 ∨ hostBad s sa (72 * n) = false) →
      paramsDefect b (hostBytes s sa (72 * n)) = none → lowestFree (s.streams.map (·.1)) 65536 = some slot →
      use = (tabNat s.slotUses slot + 1) % 65536 →
      exec (.streamOpen src) s = .next (finish c.order 0 0 (use * 65536 + slot) { running c s with
        streams := tabSet s.streams slot (newStream c (use * 65536 + slot) (readParams b (hostBytes s sa (72 * n))))
        slotUses := tabPut s.slotUses slot use })) ∧
    (∀ x, runsNow s src 0xB c → openStream s c.ctx number = some x → s.boot.mode ≠ .ready → x.closing = none →
      promptsOpen (running c s) number c.order = false →
      exec (.streamClose src) s = .next (closeStream (x.number % 65536) 6 (running c s))) ∧
    (∀ x, runsNow s src 0xE c → openStream s c.ctx number = some x → s.boot.mode ≠ .ready → x.closing = none →
      exec (.streamAbort src) s = .next (closeStream (x.number % 65536) 5 (running c s))) ∧
    (∀ x i op stop, (i, op, stop) ∈ [(Instr.streamClose src, 0xB, 6), (Instr.streamAbort src, 0xE, 5)] → runsNow s src op c →
      openStream s c.ctx number = some x → s.boot.mode = .ready →
      exec i s = .next { updStream (x.number % 65536) (fun y => { y with closing := y.closing.orElse (fun _ => some (c.order, stop)) })
        (running c s) with due := s.due ++ [.close x.number c.order stop] }) ∧
    (∀ x, runsNow s src 0xC c → openStream s c.ctx number = some x → x.closing = none →
      x.next + promptAhead (running c s) number c.order + fieldAt c.desc 32 4 ≤ 4194304 →
      hostBad s (fieldAt c.desc 24 8) (4 * fieldAt c.desc 32 4) = false →
      exec (.promptSubmit src) s = .next (updStream (number % 65536)
        (fun y => { y with prompt := y.prompt.orElse (fun _ => some c.order) }) (running c s))) ∧
    (runsNow s src 0xD c → hostBad s (fieldAt c.desc 24 8) (4 * fieldAt c.desc 20 2) = false → (batchList s c).Nodup →
      (∀ k ∈ batchList s c, (openStream s c.ctx k).isSome = true) →
      exec (.batchSet src) s =
        .next { running c s with due := s.due ++ [.batch c.order (batchFrame c) (batchList s c)] })

/-- KV_SPILL_POLICY, EXPERT_RESIDENCY, POWER_SET and FENCE: what each sets, and when it completes (05_fleos_command_set.md,
16_fabric_transactions.md, 19_power_and_cooling.md). Where a clause rests on the model's own choice, those are log
entries 13 and 54. -/
def Obligations.PolicyCommands : Prop :=
  ∀ (s : State) (src : CmdSrc) (c : FleosCmd),
    (runsNow s src 0xF c → exec (.kvSpillPolicy src) s = .next (finish c.order 0 0 0 (updCtx c.ctx (fun x => { x with
      spillMode := fieldAt c.desc 17 1, spillFormat := fieldAt c.desc 18 1, lookahead := fieldAt c.desc 19 1
      highPct := fieldAt c.desc 20 1, t2Base := fieldAt c.desc 24 8, t2Size := fieldAt c.desc 32 8 }) (running c s)))) ∧
    (runsNow s src 0x10 c → fieldAt c.desc 17 1 = 3 → exec (.expertResidency src) s = .next (if s.boot.mode = .ready
      then { running c s with
              due := s.due ++ [.policy c.ctx (fieldAt c.desc 18 2) (fieldAt c.desc 24 2) (fieldAt c.desc 26 1) c.order] }
      else finish c.order 0 0 0 (updCtx c.ctx (fun x => { x with
        residency := tabSet x.residency (fieldAt c.desc 18 2) (fieldAt c.desc 24 2, fieldAt c.desc 26 1) }) (running c s)))) ∧
    (runsNow s src 0x19 c → s.boot.mode ≠ .ready →
      ∀ t, t = applyCaps (storePower c.src (fieldAt c.desc 17 1) (fieldAt c.desc 20 4) (fieldAt c.desc 24 4) (running c s)) →
      exec (.powerSet src) s = .next (finish c.order 0 0 t.pwr.cap t)) ∧
    (runsNow s src 0x19 c → s.boot.mode = .ready → launchCome s c = false →
      exec (.powerSet src) s = .next { running c s with due := s.due ++ [.power c.order] }) ∧
    (runsNow s src 0x1A c → (ctxAt s c.ctx).isSome = true → fieldAt c.desc 17 1 ≠ 2 →
      (∀ x ∈ (running c s).cmds, x.isOpen = true → c.order ≤ x.order) →
      exec (.fence src) s = .next (finish c.order 0 0 0 (running c s))) ∧
    (∀ x, runsNow s src 0x1A c → ctxAt s c.ctx = some x → fieldAt c.desc 17 1 = 2 → c.note = 0 → (openEpochs x).length < 8 →
      (∀ y ∈ (running c s).cmds, y.isOpen = true → c.order ≤ y.order) →
      x.epochs.any (fun w => fenceCovers x.fenceEpoch (fieldAt c.desc 18 2) w.1) = false →
      x.epochFails.find? (fenceCovers x.fenceEpoch (fieldAt c.desc 18 2)) = none →
      exec (.fence src) s = .next (finish c.order 0 0 0
        (updCtx c.ctx (fun y => { y with fenceEpoch := (y.fenceEpoch + 1) % 65536 })
          (updCmd c.order (fun y => { y with note := x.fenceEpoch + 1 }) (running c s)))))

/-- TILE_RUN, LOAD, STORE, VOP, MMA, TASK_REPEAT and TEND without a defect: what each does to its task
(06_prompt_engine_and_tiles.md, 08_precision_guard.md). Where a clause rests on the model's own choice, those are log
entries 2, 21, 55 and 71. -/
def Obligations.TileInstructions : Prop :=
  ∀ (s : State) (e : Engine) (u : Nat) (t : Task) (r : Run) (x : Queue) (b : List Byte),
    (taskAt s e u = some t → queueAt s e t.queue = some x →
      (∀ y, t.run = none → readRun t s = some y → headerDefect y.2 x y.1 = none →
        exec (.tileRun e u) s = .next (beginRun t y.1 t.rung (if y.1.pg = 0 then y.2 else noteClass x y.1.gd y.2))) ∧
      (∀ n, t.run = some r → t.failed = true → storesWait s t = false → nextRung t r = some n →
        exec (.taskRepeat e u) s = .next (beginRun { t with repeats := t.repeats + 1 } r n
          (updQueue e t.queue (fun y => { y with repeated := y.repeated.orElse (fun _ => some (gdClass r.gd)) })
            (countRepeat x (gdClass r.gd) n (decide (t.repeats = 0)) (countRun x r s))))) ∧
      (t.run = some r → t.pc < r.len → fieldAt (t.code.headD []) 0 1 = 1 → leNat (slice (t.code.headD []) 1 31) = 0 →
        storesWait s t = false → (t.failed = false ∨ nextRung t r = none) →
        exec (.tend e u) s = .next (endTask t
          (if t.failed then bump 2 3 (guardScope x.ctx x.program (gdClass r.gd)) 1 (countRun x r s) else countRun x r s)))) ∧
    (dueInstr s e u 2 = some (t, r, b) → loadDefect s t r b = none → queueAt s e t.queue = some x → ∀ errs,
      exec (.load e u errs) s =
        (let y := loadRows t r b (rowsEff r (fieldAt b 4 2) (fieldAt b 12 2)) 0 Counts.none (errs.foldl applyMemErr s)
         .next (advance t (addCounts t x r y.1 (keepGrans (lostGrans errs s) y.2))))) ∧
    (dueInstr s e u 3 = some (t, r, b) → storeDefect s t r b = none → queueAt s e t.queue = some x → ∀ errs,
      exec (.store e u errs) s =
        (let n := rowsEff r (fieldAt b 4 2) (fieldAt b 12 2)
         let y := storeRows t r b n 0 0 s
         .next (advance t (noteStore t r (storeSpans r b n) (bump 2 4 (runScope x r) y.1
           (keepGrans (lostGrans errs s) (errs.foldl applyMemErr y.2))))))) ∧
    (dueInstr s e u 4 = some (t, r, b) → vopDefect t b = none → exec (.vop e u) s =
      .next (advance t ((List.range (rowsEff r (fieldAt b 4 2) (fieldAt b 24 2))).foldl (fun s i => vopRow t b i s) s))) ∧
    (dueInstr s e u 5 = some (t, r, b) → mmaDefect s t r b = none →
      (∀ m, 2 ≤ m → exec (.mma e u m) s = .next (fenceUnit t s)) ∧
      (∀ m, m < 2 → exec (.mma e u m) s =
        (let rows := rowsEff r (fieldAt b 4 1) (fieldAt b 16 2)
         let y := takeTile t r b s
         .next (advance t (setTask { t with
             tile := some y.1, ahead := if bitOf (fieldAt b 1 1) 0 then t.ahead else none }
           ((List.range rows).foldl (fun s i => mmaRow t b (rungFmt t.rung (fieldAt b 2 1 % 16)) y.1 i s)
             (noteFormats t r b y.1 rows y.2)))))))

/-- TILE_RUN, LOAD, STORE, VOP, MMA, TASK_REPEAT and TEND complete: the state each answers, as it stands on the unit
(06_prompt_engine_and_tiles.md, 08_precision_guard.md). Where a clause rests on the model's own choice, those are log
entries 2, 55 and 71. -/
def Obligations.TileTasksComplete : Prop :=
  ∀ (s : State) (e : Engine) (u : Nat) (t : Task) (r : Run) (x : Queue) (b : List Byte), taskAt s e u = some t →
    (∀ y, t.run = none → readRun t s = some y → queueAt s e t.queue = some x → headerDefect y.2 x y.1 = none →
      ∃ z c, exec (.tileRun e u) s = .next z ∧ taskAt z e u = some { t with
        run := some y.1, pc := 0, code := c, clip := 0, zeroBlocks := 0, edge := 0, failed := false, tile := none
        refetched := none, ahead := none, stores := [] }) ∧
    (∀ n, t.run = some r → queueAt s e t.queue = some x → t.failed = true → storesWait s t = false → nextRung t r = some n →
      ∃ z c, exec (.taskRepeat e u) s = .next z ∧ taskAt z e u = some { t with
        run := some r, pc := 0, code := c, rung := n, clip := 0, zeroBlocks := 0, edge := 0, failed := false, tile := none
        refetched := none, ahead := none, stores := [], repeats := t.repeats + 1 }) ∧
    (t.run = some r → queueAt s e t.queue = some x → t.pc < r.len → fieldAt (t.code.headD []) 0 1 = 1 →
      leNat (slice (t.code.headD []) 1 31) = 0 → storesWait s t = false → (t.failed = false ∨ nextRung t r = none) →
      ∃ z, exec (.tend e u) s = .next z ∧ taskAt z e u = none) ∧
    (dueInstr s e u 2 = some (t, r, b) → queueAt s e t.queue = some x → loadDefect s t r b = none → ∀ errs,
      ∃ z k, exec (.load e u errs) s = .next z ∧ taskAt z e u = some k ∧ k.pc = t.pc + 1 ∧ k.run = t.run ∧ k.rung = t.rung) ∧
    (dueInstr s e u 3 = some (t, r, b) → queueAt s e t.queue = some x → storeDefect s t r b = none → ∀ errs,
      ∃ z k, exec (.store e u errs) s = .next z ∧ taskAt z e u = some k ∧ k.pc = t.pc + 1 ∧ k.run = t.run ∧ k.rung = t.rung) ∧
    (dueInstr s e u 4 = some (t, r, b) → vopDefect t b = none →
      ∃ z k, exec (.vop e u) s = .next z ∧ taskAt z e u = some k ∧ k.pc = t.pc + 1 ∧ k.run = t.run ∧ k.rung = t.rung) ∧
    (dueInstr s e u 5 = some (t, r, b) → mmaDefect s t r b = none → ∀ m, m < 2 →
      ∃ z k, exec (.mma e u m) s = .next z ∧ taskAt z e u = some k ∧ k.pc = t.pc + 1 ∧ k.run = t.run ∧ k.rung = t.rung
        ∧ k.tile = some (takeTile t r b s).1) ∧
    (∀ i, i < localGrans e → localGet (clearLocal e u s) e u i = zeroGran)

/-- A VOP changes no memory but its own unit's local granules, and no register, context, stream or link
(06_prompt_engine_and_tiles.md, 09_generation_engine.md). Where a clause rests on the model's own choice, those are log
entries 2, 55 and 71. -/
def Obligations.VectorFrame : Prop :=
  ∀ (s : State) (e : Engine) (u : Nat) (t : Task) (r : Run) (b : List Byte), dueInstr s e u 4 = some (t, r, b) →
    vopDefect t b = none → ∃ w, exec (.vop e u) s = .next (advance t w) ∧
      (∀ a, (a < localBase e u ∨ localBase e u + 64 * localGrans e ≤ a) → cellGet w.mem.cells a = cellGet s.mem.cells a) ∧
      (∀ a, (a < localBase e u / 8 ∨ localBase e u / 8 + 8 * localGrans e ≤ a) → cellGet w.mem.tags a = cellGet s.mem.tags a) ∧
      w.host = s.host ∧ w.regs = s.regs ∧ w.contexts = s.contexts ∧ w.streams = s.streams ∧ w.links = s.links ∧ w.errs = s.errs
      ∧ w.herd = s.herd ∧
      (let z := advance t w
       (cacheMode s = false → z.mem = w.mem) ∧ z.regs = s.regs ∧ z.contexts = s.contexts ∧ z.streams = s.streams
       ∧ z.links = s.links ∧ z.herd = s.herd)

/-- STEP_PREP, SAMPLE and the five routing commands: a good command does its work once; a poisoned or defective descriptor
faults the queue (09_generation_engine.md, 11_expert_routing.md, 04_engines_queues_and_command_lists.md). Where a clause
rests on the model's own choice, those are log entries 22, 43, 44, 64, 72 and 73. -/
def Obligations.SelectEngineWork : Prop :=
  (∀ (s : State) (q : Nat) (x : Queue) (c : Cmd) (b : Batch) (n rows : Nat) (bytes : List Byte) (z : State),
    workHead s .se q 0x30 = some (x, c) →
    b = (batchOf (markWorked .se q s) x.ctx (c.body 32 2)).getD { streams := [], vector := 0, irqEn := false, fn := 0, gone := [] } →
    n = b.streams.length → rows = (if c.body 34 1 = 0 then c.body 35 1 + 1 else 1) →
    (List.range n).foldl (fun (a : List Byte × State) t => (a.1 ++ (prepSlot b (c.body 34 1 == 0) (c.body 35 1) t a.2).1,
      (prepSlot b (c.body 34 1 == 0) (c.body 35 1) t a.2).2)) ([], markWorked .se q s) = (bytes, z) →
    exec (.stepPrep q) s = .next (putGran (tableHead (c.body 40 8))
      { payload := slice (natLe 4 (n * rows)) 0 64, tags := List.replicate 8 0 }
      (putGrans (c.body 40 8) (toGrans ((n * rows + 3) / 4) (bytes ++ tablePad rows n ((4 - n * rows % 4) % 4))) z))) ∧
  (∀ (s : State) (q : Nat) (x : Queue) (c : Cmd) (b : Batch), workHead s .se q 0x31 = some (x, c) →
    batchOf (markWorked .se q s) x.ctx (c.body 32 2) = some b →
    ∀ rs, rs = tableRows (markWorked .se q s) (c.body 56 8) →
    (c.body 34 1 = 1 → exec (.sample q) s =
      .next ((List.range b.streams.length).foldl (fun s t => draftSlot c q b rs t s) (markWorked .se q s))) ∧
    (c.body 34 1 ≠ 1 → ∀ wrote z, (List.range b.streams.length).foldl (fun (a : Bool × State) t =>
        (a.1 || (sampleSlot c q b rs t a.2).1, (sampleSlot c q b rs t a.2).2)) (false, markWorked .se q s) = (wrote, z) →
      exec (.sample q) s = .next (if wrote ∧ b.irqEn then signalVector b.fn b.vector z else z))) ∧
  (∀ (s : State) (q op : Nat) (i : Instr) (k : Queue → Cmd → Lrd → State → State),
    (i, op, k) ∈ [(Instr.routeSelect q, 0x20, routeSelectEffect), (.routePlan q, 0x21, routePlanEffect),
      (.routeScatter q, 0x22, routeScatterEffect), (.routeGather q, 0x23, routeGatherEffect),
      (.routeCombine q, 0x24, routeCombineEffect)] →
    ∀ x c d z, workHead s .se q op = some (x, c) →
      (loadBytes (c.body 32 8) 512 s = (d, true, z) → exec i s = .next (faultPoison .se q z)) ∧
      (loadBytes (c.body 32 8) 512 s = (d, false, z) → lrdOk z d = false → exec i s = .next (faultQueue .se q 9 z)) ∧
      (loadBytes (c.body 32 8) 512 s = (d, false, z) → lrdOk z d = true → exec i s = .next (k x c d (markWorked .se q z)))) ∧
  (∀ (s : State) (ctx prog g l : Nat) (p : Program) (h : HotPool), progAt s ctx prog = some p → groupLayer s p g = some l →
    (ctxAt s ctx).bind (fun c => tabGet c.hotPools l) = some h → p.marks.contains g = false → h.frame = s.herd.frame → h.lens ≠ [] → planRunning s p g = false →
    exec (.fillGroupWrite ctx prog g) s = .next (updProg ctx prog (fun p => { p with marks := p.marks ++ [g] })
      ((p.fills.filter (fun f => f.group == g)).foldl (fun s f => updQueue f.engine f.queue (fun x => { x with
        list := x.list.modify f.cmd (fun (now : Cmd) => fillCommand h f f.engine (x.template.getD f.cmd []) now) }) s) s)))

/-- COPY, REPLICATE and SCHEDULE commands, SCHEDULE_ISSUE and SCHEDULE_TRANSFER_DONE (12_memory_tiers.md). Where a clause
rests on the model's own choice, those are log entries 41, 56, 62 and 74. -/
def Obligations.TierEngineWork : Prop :=
  (∀ (s : State) (q : Nat) (x : Queue) (c : Cmd), workHead s .te q 0x10 = some (x, c) → ∀ sr src dr dst w,
    resolveAddr s (bitOf (c.body 52 1) 0) (c.body 32 8) = (sr, src) → resolveAddr s (bitOf (c.body 52 1) 1) (c.body 40 8) = (dr, dst) →
    w = servePieces c.coreFirst (c.lastUnit .te) sr (bitOf (c.body 52 1) 2 || bitOf (c.body 52 1) 3) dr src dst (c.body 48 4)
      (markWorked .te q (bump 7 1 (tierScope x.ctx) (64 * c.body 48 4) s)) →
    (sr = true → exec (.copy q) s = .next (startRemote (.copy q) c.genFlag src dst (c.body 48 4) (bitOf (c.body 52 1) 2) w)) ∧
    (∀ gs z, sr = false → readLocal x.ctx src (c.body 48 4) (bitOf (c.body 52 1) 2) w = (gs, z) →
      exec (.copy q) s = .next (placeXfer (.copy q) (.queue .te q) dr (bitOf (c.body 52 1) 3) c.genFlag dst gs z))) ∧
  (∀ (s : State) (q : Nat) (x : Queue) (c : Cmd), workHead s .te q 0x11 = some (x, c) → ∀ gs z,
    loadGrans (c.body 48 4) (c.body 32 8) (markWorked .te q (bump 7 2 (tierScope x.ctx) (20 * 64 * c.body 48 4) s)) = (gs, z) →
    exec (.replicate q) s = .next ((replicaDests z c).zipIdx.foldl (fun s d =>
      putGrans d.1 gs (servePieces d.2 (d.2 + 1) false false false (c.body 32 8) d.1 (c.body 48 4) s)) z)) ∧
  (∀ (s : State) (q : Nat) (x : Queue) (c : Cmd) (p : Program), workHead s .te q 0x12 = some (x, c) →
    progAt s x.ctx x.program = some p →
    (c.body 40 1 = 2 → exec (.schedule q) s = .next (silenceSchedule x.ctx x.program
      (updProg x.ctx x.program (fun p => { p with schedule := none }) (markWorked .te q s)))) ∧
    (c.body 40 1 ≠ 2 → readSchedule s c p = none → exec (.schedule q) s = .next (faultQueue .te q 9 s)) ∧
    (∀ sc, c.body 40 1 ≠ 2 → readSchedule s c p = some sc → exec (.schedule q) s =
      .next (silenceSchedule x.ctx x.program
        (updProg x.ctx x.program (fun p => { p with schedule := some sc }) (markWorked .te q s))))) ∧
  (∀ (s : State) (ctx prog i k0 : Nat) (p : Program) (sc : Schedule) (e : SchedEntry), progAt s ctx prog = some p →
    p.schedule = some sc → sc.k0 = some k0 → sc.entries[i]? = some e → s.boot.mode = .ready → s.herd.inFrame = true →
    s.herd.diverged = false → s.pwr.stopped = false → k0 ≤ s.herd.frame + e.lead →
    (s.herd.frame + e.lead - k0) % sc.period = e.phase → (i, s.herd.frame + e.lead) ∉ sc.issued → progHolding s p = false →
    e.startOff < s.herd.period → tickOf s.herd s.herd.frame + e.startOff ≤ s.herd.time →
    (e.freeWait = false ∨ eventReached s e.freeEvent e.freeCount = true) →
    (e.srcRemote = true ∨ rewriting s ctx e.src (64 * e.length) = false) →
    exec (.scheduleIssue ctx prog i) s = .next (startEntry ctx prog i (s.herd.frame + e.lead) e s)) ∧
  (∀ (s : State) (id ctx prog i served : Nat) (x : Xfer) (sc : Schedule) (e : SchedEntry), s.pwr.stopped = false →
    xferAt s id = some x → x.use = .sched ctx prog i served → x.round = 2 →
    (progAt s ctx prog).bind (·.schedule) = some sc → sc.entries[i]? = some e → x.silent = false → s.herd.inFrame = true →
    (served = s.herd.frame → exec (.scheduleTransferDone id) s = .next (dropXfer id (signalEvent e.readyEvent s))) ∧
    (served < s.herd.frame → exec (.scheduleTransferDone id) s = .next (dropXfer id (bump 7 1 (ctx * 256 + prog) 1 s))))

/-- KV_POOL_INIT, KV_APPEND, KV_GATHER, KV_SPILL, KV_SPILL_DONE, KV_RETURN_DONE and the hand-over of pages
(10_attention_and_kv_pages.md). Where a clause rests on the model's own choice, those are log entries 14, 16, 22, 43, 62
and 72. -/
def Obligations.KvWork : Prop :=
  (∀ (s : State) (q : Nat) (x : Queue) (c : Cmd) (d : List Byte) (z : State), workHead s .te q 0x40 = some (x, c) →
    loadBytes (c.body 32 8) 224 s = (d, false, z) → poolOk z x.ctx d = true → exec (.kvPoolInit q) s =
      .next (updPool x.ctx id (updCtx x.ctx (fun k => { k with pool := some (readPool d) }) (markWorked .te q z)))) ∧
  (∀ (s z : State) (q : Nat) (x : Queue) (c : Cmd) (p : Pool) (wait : Bool), workHead s .te q 0x41 = some (x, c) →
    poolOf s x.ctx = some p →
    appendRows x.ctx p (c.body 32 2) (c.body 40 8) (c.body 36 4) (slotRows (tableRows s (c.body 48 8))) s = (wait, z) →
    exec (.kvAppend q) s = .next (if wait then z else markWorked .te q z)) ∧
  (∀ (s z : State) (q : Nat) (x : Queue) (c : Cmd) (p : Pool) (wait : Bool) (sl : List (Nat × List TableRow)),
    workHead s .te q 0x42 = some (x, c) → poolOf s x.ctx = some p → sl = slotRows (tableRows s (c.body 56 8)) →
    sl.foldl (fun (a : Bool × State) t => (a.1 || (awaitPages x.ctx p (c.body 38 1) (c.body 36 2) t.2 a.2).1,
      (awaitPages x.ctx p (c.body 38 1) (c.body 36 2) t.2 a.2).2)) (false, s) = (wait, z) →
    exec (.kvGather q) s = .next (if wait then z else markWorked .te q
      (sl.foldl (fun y t => gatherSlot x q p c (tableDmax (tableRows s (c.body 56 8))) t y) z))) ∧
  (∀ (s : State) (ctx : Nat) (c : Context) (p : Pool), s.pwr.stopped = false → ctxAt s ctx = some c → c.pool = some p →
    exec (.kvSpill ctx) s = .next (if maySpill c p = true ∧ (p.spillRun = true ∨ c.highPct * p.frameCount < p.usedFrames.length * 100)
      then spillRun ctx c p s else s)) ∧
  (∀ (s z : State) (ctx d n d' n' slot a v : Nat) (x : Xfer) (p : Pool), s.pwr.stopped = false →
    kvXfer s (spillOf ctx d n) = some x →
    x.use = .spill ctx d' n' slot → poolOf s ctx = some p → outstandingOf s (.xfer x.id) = false → x.silent = false →
    x.failed = false → pageAt p d n (dropXfer x.id s) = (.entry a v, z) → exec (.kvSpillDone ctx d n) s =
      .next (tickReturns ctx (retryHandovers ctx (bump 5 2 ctx 1 (freeFrame ctx x.src (putLeaf a (leafEntry 4 (leafTcf v) 0 slot) z)))))) ∧
  (∀ (s z y : State) (ctx d n a v : Nat) (x : Xfer) (p : Pool) (parts : List (List Granule)), s.pwr.stopped = false →
    kvXfer s (returnOf ctx d n) = some x →
    poolOf s ctx = some p → x.round = 2 → x.silent = false → x.failed = false → pageAt p d n s = (.entry a v, z) →
    returnedParts ctx x (p.partBytes / 64) (dropXfer x.id z) = (parts, y) → parts.any (fun gs => gs.any isPoison) = false →
    exec (.kvReturnDone ctx d n) s = .next (bump 5 4 ctx 1 (putLeaf a (leafEntry 3 (leafTcf v) x.dst (leafSlot v))
      (parts.zipIdx.foldl (fun s g => putGrans (p.frameBase.getD g.2 0 + x.dst * p.partBytes) g.1 s) y)))) ∧
  (∀ (s : State) (dev no lay tok fed : Nat) (pages : List (List Granule)), streamNo s no = none →
    exec (.kvHandover dev no lay tok fed pages) s = .next { s with out := s.out ++ [.handoverAnswer dev 3] }) ∧
  (∀ (s : State) (dev no lay tok fed : Nat) (pages : List (List Granule)) (x : Stream), streamNo s no = some x →
    x.dirSlot = none → x.fed = none → x.promptToken = none → (poolOf s x.ctx).map (·.layoutId) = some lay →
    exec (.kvHandover dev no lay tok fed pages) s =
      .next (takePages { dev, stream := no, tokens := tok, fed, pages := pages.zipIdx } s) ∧
    (∀ f rest z, storePages x.ctx (no % 65536) pages.zipIdx s = ((.got f, rest), z) →
      exec (.kvHandover dev no lay tok fed pages) s = .next (updStream (no % 65536) (fun x => { x with
        promptToken := some fed, handFrom := some dev, next := tok }) (commitKv (no % 65536) tok z))))

/-- WEIGHT_LOAD and WEIGHT_REPLACE: refused, or the offer sent, a host source read whole or a peer source awaited
(13_weight_lifecycle.md). Where a clause rests on the model's own choice, those are log entries 28, 41, 56 and 74. -/
def Obligations.WeightLoads : Prop :=
  ∀ (s : State) (src : CmdSrc) (c : FleosCmd) (w : State), w = running c s →
    (∀ st d, runsNow s src 5 c → loadRefusal w c = some (st, d) → exec (.weightLoad src) s = .next (finish c.order st d 0 w)) ∧
    (∀ z, runsNow s src 5 c → loadRefusal w c = none → z = sendOffer c.order w →
      (c.wSource = 2 → exec (.weightLoad src) s = .next (settleLoad c.order z)) ∧
      (∀ gs y, c.wSource ≠ 2 → gs = hostGrans z c.wSrc (c.wLen / 64) → y = putAt (targetAddrs z c) gs z →
        (gs.findIdx? isPoison = none → exec (.weightLoad src) s =
          .next (settleLoad c.order (updCmd c.order (fun x => { x with progress := x.wPieces }) y))) ∧
        (∀ i, gs.findIdx? isPoison = some i → exec (.weightLoad src) s = .next (finishPoisoned c (c.wSrc + 72 * i)
          (if c.wForward = 0 then y else emit (.pieceNotice (devField c.wForward) (i / 32768) true) y))))) ∧
    (∀ st d, runsNow s src 6 c → replaceRefusal w c = some (st, d) → exec (.weightReplace src) s = .next (finish c.order st d 0 w)) ∧
    (runsNow s src 6 c → replaceRefusal w c = none → exec (.weightReplace src) s = .next w) ∧
    (cmdOf s src = some c → c.opcode = 6 → c.phase = .running →
      exec (.weightReplace src) s = .next (forwardPieces c.order (rewriteNow c.order s)))

/-- CHAIN_OFFER, CHAIN_READY, CHAIN_OFFER_RECEIVE, PIECE_NOTICE and PEER_SOURCE_TIMEOUT: a fan-out chain step by step
(13_weight_lifecycle.md). Where a clause rests on the model's own choice, that is log entry 41. -/
def Obligations.ChainRows : Prop :=
  ∀ (s : State) (src : CmdSrc) (c : FleosCmd), weightCmd s src = some c →
    (c.wForward ≠ 0 → c.chain.ready = false → c.chain.offers ≠ 0 → c.chain.offers < 100 →
      exec (.chainOffer src) s = .next (sendOffer c.order s)) ∧
    (∀ z, c.wForward ≠ 0 → c.chain.ready = false → c.chain.offers = 100 → z = updChain c.order (fun k => { k with offers := 101 }) s →
      (c.opcode = 5 → exec (.chainOffer src) s = .next (settleLoad c.order z)) ∧
      (c.opcode = 6 → c.wPieces ≤ c.progress →
        exec (.chainOffer src) s = .next (failReplace c.order 8 (devField c.wForward) c.written (bump 9 3 c.ctx 1 z)))) ∧
    (c.wForward ≠ 0 → c.chain.offers ≠ 0 → c.chain.offers ≤ 100 → exec (.chainReady src) s =
      .next (settleLoad c.order (forwardPieces c.order (updChain c.order (fun k => { k with ready := true }) s)))) ∧
    (∀ piece, c.wSource = 2 → c.chain.offered = true → piece < c.wPieces →
      (piece ≠ c.progress → exec (.pieceNotice src piece false) s = .next s) ∧
      (∀ z, piece = c.progress → z = updCmd c.order (fun x => { x with progress := x.progress + 1 }) s →
        exec (.pieceNotice src piece false) s = .next (settleLoad c.order (forwardPieces c.order
          (if c.opcode = 6 ∧ c.progress + 1 = c.wPieces then setOrigins c c.wLen z else z)))) ∧
      (∀ z, c.opcode = 5 → z = (if c.wForward = 0 then s else emit (.pieceNotice (devField c.wForward) piece true) s) →
        exec (.pieceNotice src piece true) s = .next (finishPoisoned c (c.wSrc + piece * 2 ^ 21) z))) ∧
    (c.wSource = 2 → c.progress < c.wPieces →
      (c.opcode = 5 → exec (.peerSourceTimeout src) s = .next (finish c.order 8 (devField c.wSrc) 0 s)) ∧
      (c.opcode = 6 → exec (.peerSourceTimeout src) s = .next (failReplace c.order 8 (devField c.wSrc) 0 (setOrigins c c.written s)))) ∧
    (∀ dev d a b n, (∀ k ∈ s.cmds, ¬(k.opcode = 5 ∧ k.phase = .running ∧ k.wSource = 2 ∧ k.wSrc = a ∧ k.wDest = b ∧ k.wLen = n)) →
      d = devField a → d = dev → exec (.chainOfferReceive dev 5 a b n) s = .next s) ∧
    (c.opcode = 5 → c.wSource = 2 → s.cmds.find? (fun k => k.opcode == 5 && k.phase == .running && k.wSource == 2 &&
        k.wSrc == c.wSrc && k.wDest == c.wDest && k.wLen == c.wLen) = some c →
      exec (.chainOfferReceive (devField c.wSrc) 5 c.wSrc c.wDest c.wLen) s =
        .next (emit (.chainReady (devField c.wSrc)) (updChain c.order (fun k => { k with offered := true }) s)))

/-- RELOAD_DONE and REPLACE_REWRITE_DONE: layers written or lost, the barrier released, the generation number raised
(13_weight_lifecycle.md). Where a clause rests on the model's own choice, those are log entries 18, 41 and 74. -/
def Obligations.ReloadRows : Prop :=
  ∀ (s : State) (ctx : Nat),
    (s.pwr.stopped = true → exec (.reloadDone ctx) s = .next s ∧ exec (.replaceRewriteDone ctx) s = .next s) ∧
    (∀ k ok z, s.pwr.stopped = false → ctxAt s ctx = some k → reloading k = true →
      s.fab.xfers.any (fun x => x.use == .weight ctx && decide (x.round < 2) && !x.failed) = false →
      k.layers.foldl (fun (acc : Bool × State) (l : Nat × List Extent) =>
          (l.2.filter (fun x => x.state == 1)).foldl (fun (acc : Bool × State) x =>
            (acc.1 && (endReload ctx l.1 x acc.2).1, (endReload ctx l.1 x acc.2).2)) acc) (true, s) = (ok, z) →
      ∀ y, y = { z with fab := { z.fab with xfers := z.fab.xfers.filter (fun x => x.use != .weight ctx) } } →
      exec (.reloadDone ctx) s = .next (if ok then releaseNow ctx y else
        updCtx ctx (fun k => { k with barrier := match k.barrier with
          | some b => if b.cmd.isSome then some b else none
          | none => none }) (parkContext ctx y))) ∧
    (∀ o z c, s.pwr.stopped = false → ((ctxAt s ctx).bind (·.barrier)).bind (·.cmd) = some o →
      z = forwardPieces o (rewriteNow o s) → cmdNo z o = some c → c.phase = .running → c.note = 1 → c.wPieces ≤ c.progress →
      (offersSpent c = true → exec (.replaceRewriteDone ctx) s =
        .next (failReplace o 8 (devField c.wForward) c.written (bump 9 3 ctx 1 z))) ∧
      (∀ d, offersSpent c = false → forwardEnded z c = true → c.chain.dead = some d →
        exec (.replaceRewriteDone ctx) s = .next (failReplace o 7 d c.written z)) ∧
      (∀ x y, offersSpent c = false → forwardEnded z c = true → c.chain.dead = none →
        x = bump 9 1 ctx c.wLen (if c.wForward = 0 then z else bump 9 2 ctx c.wLen z) →
        y = updCtx ctx (fun k => { k with
          generation := (k.generation + 1) % 2 ^ 64, barrier := k.barrier.map (fun b => { b with finished := true }) })
          (emptyPools ctx c.wLayer c.wCount (updCmd o (fun x => { x with note := 2 }) x)) →
        exec (.replaceRewriteDone ctx) s = .next (releaseNow ctx (setCounter 9 0 ctx (((ctxAt y ctx).map (·.generation)).getD 0) y))))

/-- Refresh: a bank is postponed at most 8 intervals, and at that limit the refresh issues and is counted
(14_stack_memory.md). Where a clause rests on the model's own choice, that is log entry 52. -/
def Obligations.RefreshLimit : Prop :=
  ∀ (s : State) (stack pc bank : Nat) (idle : Bool),
    (stackRuns s stack = false → exec (.refresh stack pc bank idle) s = .next s) ∧
    (stackRuns s stack = true → stack < s.mem.stackStates.length → ∃ t, exec (.refresh stack pc bank idle) s = .next t ∧
      (idle = true → tabNat (stackAt t stack).postponed (pc * 64 + bank) = 0) ∧
      (idle = false → tabNat (stackAt s stack).postponed (pc * 64 + bank) < 8 →
        tabNat (stackAt t stack).postponed (pc * 64 + bank) = tabNat (stackAt s stack).postponed (pc * 64 + bank) + 1 ∧
        t.counters = s.counters) ∧
      (idle = false → 8 ≤ tabNat (stackAt s stack).postponed (pc * 64 + bank) →
        tabNat (stackAt t stack).postponed (pc * 64 + bank) = 0 ∧ t.counters = (bump 10 4 stack 1 s).counters) ∧
      (∀ j, j ≠ stack → stackAt t j = stackAt s j) ∧
      (∀ k, k ≠ pc * 64 + bank → tabNat (stackAt t stack).postponed k = tabNat (stackAt s stack).postponed k) ∧
      (stackAt t stack).step = (stackAt s stack).step ∧ t.mem.cells = s.mem.cells ∧ t.mem.tags = s.mem.tags ∧ t.host = s.host ∧
      t.errs = s.errs ∧ t.regs = s.regs ∧ t.pwr = s.pwr ∧ t.boot = s.boot)

/-- STACK_TEMP_READING, STACK_THROTTLE_FALL and STORE_SCRUB: throttle steps, critical crossings, scrubbed words
(14_stack_memory.md, 18_integrity_map.md). Where a clause rests on the model's own choice, those are log entries 52 and
75. -/
def Obligations.StackRows : Prop :=
  ∀ (s : State) (stack : Nat) (temps : List Nat) (t : Nat) (k : StackState), k = stackAt s stack → t = temps.foldl max 0 →
    (stackRuns s stack = false → exec (.stackTempReading stack temps) s = .next s ∧ exec (.stackThrottleFall stack) s = .next s) ∧
    (∀ step y, stackRuns s stack = true → step = (if thermCrit s ≤ t then 3 else max k.step (targetStep s t)) →
      y = updStack stack (fun x => { x with
        step := step, hottest := t, highest := max k.highest t, critical := decide (thermCrit s ≤ t), cool := belowFall s step t })
        (setCounter 10 15 stack (max k.highest t) (bump 10 (11 + k.step) stack 10000 s)) →
      (thermCrit s ≤ t → k.critical = false →
        exec (.stackTempReading stack temps) s = .next (noteReasons (recordErr { blankErr 10 with unitKind := 2, unit := stack, detail := t } y))) ∧
      (t < thermCrit s ∨ k.critical = true → exec (.stackTempReading stack temps) s = .next (noteReasons y))) ∧
    (stackRuns s stack = true → k.cool = true → exec (.stackThrottleFall stack) s = .next (noteReasons (updStack stack (fun k => { k with
      step := k.step - 1, cool := belowFall s (k.step - 1) k.hottest }) s))) ∧
    (stackRuns s stack = true → k.cool = false → exec (.stackThrottleFall stack) s = .next s) ∧
    (∀ a b, s.boot.released < 5 ∨ s.pwr.stopped = true → exec (.storeScrub a b) s = .next s) ∧
    (∀ bad, 5 ≤ s.boot.released → s.pwr.stopped = false → exec (.storeScrub [] bad) s = .next (bad.foldl scrubBad s)) ∧
    (∀ a d, 5 ≤ s.boot.released → s.pwr.stopped = false → placeOf a = .store → d = (a - 0x20000000000) / 2 ^ 30 →
      exec (.storeScrub [a] []) s =
        .next { s with mem := { s.mem with corrected := tabPut s.mem.corrected d (tabNat s.mem.corrected d + 1) } })

/-- MESH_FLIT_RECEIVE: a good flit ends the attempts, a bad one is tried again, and the fourth failure poisons what it
carries (18_integrity_map.md). Where a clause rests on the model's own choice, those are log entries 32 and 52. -/
def Obligations.MeshFlits : Prop :=
  ∀ (s : State) (edge : Nat) (data : List Byte) (crc : Nat) (gr : List Nat) (n : Nat), 5 ≤ s.boot.released →
    n = tabNat s.mem.meshTries edge →
    (edgeEnds edge = none → exec (.meshFlitReceive edge data crc gr) s = .next s) ∧
    (edgeEnds edge ≠ none → crc16 data = crc → exec (.meshFlitReceive edge data crc gr) s =
      .next { s with mem := { s.mem with meshTries := tabPut s.mem.meshTries edge 0 } }) ∧
    (edgeEnds edge ≠ none → crc16 data ≠ crc → n < 3 → exec (.meshFlitReceive edge data crc gr) s =
      .next { s with mem := { s.mem with meshTries := tabPut s.mem.meshTries edge (n + 1) } }) ∧
    (edgeEnds edge ≠ none → crc16 data ≠ crc → 3 ≤ n → ∀ w m, w = recordErr { blankErr 13 with detail := edge }
        ((gr.filter (crosses s edge)).foldl (fun s a => storeGran a poisonGran s) { s with mem := { s.mem with meshTries := tabPut s.mem.meshTries edge 0 } }) →
      m = (tabGet w.mem.meshFails edge).getD (0, w.herd.time) →
      (w.herd.time - m.2 < 1000000 → m.1 + 1 < 16 → exec (.meshFlitReceive edge data crc gr) s =
        .next { w with mem := { w.mem with meshFails := tabSet w.mem.meshFails edge (m.1 + 1, m.2) } }) ∧
      (w.herd.time - m.2 < 1000000 → 16 ≤ m.1 + 1 → exec (.meshFlitReceive edge data crc gr) s = .next (fatalError
        { blankErr 31 with detail := edge } { w with mem := { w.mem with meshFails := tabSet w.mem.meshFails edge (m.1 + 1, m.2) } })) ∧
      (1000000 ≤ w.herd.time - m.2 → exec (.meshFlitReceive edge data crc gr) s =
        .next { w with mem := { w.mem with meshFails := tabSet w.mem.meshFails edge (1, w.herd.time) } }))

/-- FLIT_RECEIVE, NAK and REPLAY_TIMEOUT: a failed flit is discarded and answered by one NAK, DATA is delivered once and in
order (15_worl_links.md). Where a clause rests on the model's own choice, those are log entries 20, 42 and 65. -/
def Obligations.FlitRows : Prop :=
  ∀ (s : State) (l : Nat) (f : List Byte) (k : Link), k = linkOf s l →
    (k.state ≠ 2 → k.state ≠ 5 → ∀ b, exec (.flitReceive l f b) s = .next s) ∧
    (k.state = 2 ∨ k.state = 5 → ∀ cs w,
      w = (List.range 4).foldl (fun s i => lcount l (3 + i) (cs.getD i 0) s) (lcount l 2 1 s) →
      exec (.flitReceive l f none) s = .next (sendNak l (lcount l 7 1 (lcount l 8 1
        (updLink l (fun k => { k with rxPos := rxAfter false k.rxPos }) (lcount l 2 1 s))))) ∧
      (flitGood f = false → exec (.flitReceive l f (some cs)) s = .next (sendNak l (lcount l 8 1
        (updLink l (fun k => { k with rxPos := rxAfter false k.rxPos }) w)))) ∧
      (flitGood f = true → l < s.links.length → fieldAt f 0 1 % 8 = 1 → bitOf (fieldAt f 3 2) 15 = false →
        k.waiting = [] → ∃ t, exec (.flitReceive l f (some cs)) s = .next t ∧
        (linkOf t l).rxPos = rxAfter (bitOf (fieldAt f 0 1) 3) k.rxPos ∧
        (fieldAt f 1 2 = k.rxNext → (linkOf t l).delivered = k.delivered ++ [slice f 12 240] ∧
          (linkOf t l).rxNext = (k.rxNext + 1) % 4096 ∧ (linkOf t l).nakSent = false) ∧
        (fieldAt f 1 2 ≠ k.rxNext → (linkOf t l).delivered = k.delivered ∧ (linkOf t l).rxNext = k.rxNext ∧
          (linkOf t l).nakSent = k.nakSent))) ∧
    (∀ ack, k.state = 2 → exec (.nak l ack) s = .next (replayAll l (countReplay l (ackUpTo l ack (lcount l 10 1 s))))) ∧
    (∀ ack, k.state ≠ 2 → exec (.nak l ack) s = .next s ∧ exec (.replayTimeout l) s = .next s) ∧
    (k.state = 2 → k.replay ≠ [] → exec (.replayTimeout l) s = .next (replayAll l (countReplay l (lcount l 12 1 s)))) ∧
    (k.replay = [] → exec (.replayTimeout l) s = .next s) ∧
    (k.nakSent = true → sendNak l s = s)

/-- LANE_LOCK_LOSS, DEGRADE_MESSAGE, RETRAIN_COMPLETE, LINK_DOWN and the cable supplies: degrade, DOWN, loss of peers
(15_worl_links.md, 25_module_interface_and_electrical.md). Where a clause rests on the model's own choice, that is log
entry 65. -/
def Obligations.LinkHealth : Prop :=
  ∀ (s : State) (l lane : Nat) (errs : List Nat) (k : Link), k = linkOf s l →
    (k.state = 2 → k.degrading = none →
      (bitOf k.lanes lane = true → exec (.laneLockLoss l (some lane) errs) s = .next (startDegrade l lane s)) ∧
      (bitOf k.lanes lane = false → exec (.laneLockLoss l (some lane) errs) s = .next s) ∧
      (replayLimit s l = true → exec (.laneLockLoss l none errs) s = .next (startDegrade l (worstLane k.lanes errs) s)) ∧
      (replayLimit s l = false → exec (.laneLockLoss l none errs) s = .next s)) ∧
    (laneCount k.lanes ≤ 1 → startDegrade l lane s = linkGoesDown l s) ∧
    (1 < laneCount k.lanes → startDegrade l lane s = emit (.degrade l lane ((k.rxNext + 4095) % 4096))
      (lcount l 13 1 (updLink l (fun k => { k with degrading := some lane }) s))) ∧
    (∀ lastSeq w, k.state = 2 → w = ackUpTo l lastSeq s →
      exec (.degradeMessage l lane lastSeq) s = .next (if k.degrading = none then startDegrade l lane w else w)) ∧
    (∀ lastSeq w y, k.state = 2 → k.degrading = some lane → w = updLink l (fun k => { k with
        lanes := if bitOf k.lanes lane then k.lanes - 2 ^ lane else k.lanes, degrading := none, nakSent := false,
        replays := 0, sameReplays := 0, tx := TxStream.reset, rxPos := none }) s → y = drainWaiting l (replayAll l (ackUpTo l lastSeq w)) →
      exec (.retrainComplete l lastSeq) s = .next (if masterRoute y = some l then routeChange y else y)) ∧
    (exec (.linkDown l) s = .next (linkGoesDown l s)) ∧
    (k.state ≠ 2 → ∀ n, exec (.linkDown l) s = .next s ∧ exec (.laneLockLoss l (some lane) errs) s = .next s ∧
      exec (.degradeMessage l lane n) s = .next s ∧ exec (.retrainComplete l n) s = .next s) ∧
    (∀ c, 7 ≤ s.boot.released → c ∉ s.boot.cablesOff → exec (.cableSupplyOverload c) s =
      .next ((List.range 8).foldl (fun s i => linkGoesDown (8 * c + i) s)
        { s with boot := { s.boot with cablesOff := c :: s.boot.cablesOff } })) ∧
    (∀ c, c ∈ s.boot.cablesOff → exec (.cableSupplyOverload c) s = .next s) ∧
    (∀ c, exec (.cableSupplyRetry c true) s = .next s ∧ exec (.cableSupplyRetry c false) s =
      .next { s with boot := { s.boot with cablesOff := s.boot.cablesOff.filter (fun d => decide (d ≠ c)) } })

/-- IDENTITY_BLOCK and LINK_RETRAIN_ATTEMPT: a peer is admitted, or its link is disabled with a reason and a record
(15_worl_links.md). -/
def Obligations.LinkIdentity : Prop :=
  ∀ (s : State) (r : LinkReport) (k : Link), k = linkOf s r.link →
    (k.state ≠ 1 → exec (.identityBlock r) s = .next s) ∧
    (k.state = 1 →
      (s.boot.straps.linksplit = 6 → exec (.identityBlock r) s = .next (updLink r.link (fun k => trainedLink k r
        (if fieldAt r.block 0 1 = 1 ∧ fieldAt r.block 2 1 = r.link ∧ fieldAt r.block 4 4 = devOf s then 5 else 4)) s)) ∧
      (∀ d, s.boot.straps.linksplit ≠ 6 → blockDefect s r.link r.block = some d → exec (.identityBlock r) s =
        .next (linkErr r.link d (updLink r.link (fun k => { trainedLink k r 3 with disReason := d }) s))) ∧
      (s.boot.straps.linksplit ≠ 6 → blockDefect s r.link r.block = none →
        exec (.identityBlock r) s = .next (updLink r.link (fun k => trainedLink k r 2) s))) ∧
    (∀ l rep, (linkOf s l).state ≠ 4 ∨ s.boot.released < 7 → exec (.linkRetrainAttempt l rep) s = .next s) ∧
    (∀ l, exec (.linkRetrainAttempt l none) s = .next s) ∧
    (∀ l, (linkOf s l).state = 4 → 7 ≤ s.boot.released →
      (expectedPeer s l = some (fieldAt r.block 0 1, fieldAt r.block 2 1, fieldAt r.block 4 4) → blockDefect s l r.block = none →
        exec (.linkRetrainAttempt l (some r)) s = .next (linkErr l 0 (lcount l 15 1 (afterLinks (masterRoute s)
          (updLink l (fun k => trainedLink k r 2) s))))) ∧
      (expectedPeer s l ≠ some (fieldAt r.block 0 1, fieldAt r.block 2 1, fieldAt r.block 4 4) ∨ blockDefect s l r.block ≠ none →
        exec (.linkRetrainAttempt l (some r)) s =
          .next (linkErr l 7 (updLink l (fun k => { trainedLink k r 3 with disReason := 7 }) s))))

/-- GET, PUT, ATOMIC, SEND, MBOX, EXCHANGE and ROUTE_EXCHANGE: a good command does or issues its work once
(16_fabric_transactions.md). Where a clause rests on the model's own choice, those are log entries 42 and 56. -/
def Obligations.FabricCommands : Prop :=
  ∀ (s : State) (q : Nat) (x : Queue) (c : Cmd) (w : State), w = markWorked .fe q s →
    (workHead s .fe q 0x10 = some (x, c) →
      (∀ g z, devField (c.body 32 8) = devOf s → bitOf (c.body 52 1) 1 = true → peckGran (localField (c.body 32 8)) w = (g, z) →
        exec (.get q) s = .next (putGran (c.body 40 8) g z)) ∧
      (∀ gs z, devField (c.body 32 8) = devOf s → bitOf (c.body 52 1) 1 = false →
        loadGrans (c.body 48 4) (localField (c.body 32 8)) w = (gs, z) →
        exec (.get q) s = .next (putGrans (c.body 40 8) gs z)) ∧
      (devField (c.body 32 8) ≠ devOf s → bitOf (c.body 52 1) 1 = false → bitOf (c.body 52 1) 0 = false →
        exec (.get q) s = .next (getRequests (.queue .fe q) x.ctx (devField (c.body 32 8)) c.genFlag (c.body 48 4) (c.body 48 4)
          (localField (c.body 32 8)) (c.body 40 8) w))) ∧
    (∀ gs z, workHead s .fe q 0x11 = some (x, c) → loadGrans (c.body 48 4) (c.body 40 8) w = (gs, z) →
      exec (.put q) s = .next (if devField (c.body 32 8) = devOf z then putGrans (localField (c.body 32 8)) gs z
        else storeRemote (.queue .fe q) x.ctx c.genFlag (c.body 32 8) (c.body 48 4 + 1) gs z)) ∧
    (∀ g z old g', workHead s .fe q 0x12 = some (x, c) → devField (atomicRemote c) = devOf s →
      loadGran (localField (atomicRemote c) / 64 * 64) w = (g, z) →
      atomicGran (atomicOp c) (localField (atomicRemote c)) (c.body 40 8) (c.body 48 8) g = (old, g') → ∀ y,
      y = (if old.isSome then putGran (localField (atomicRemote c) / 64 * 64) g' z else z) →
      exec (.atomic q) s = .next (if c.body 56 8 = 0 then y else putGran (c.body 56 8) (resultGran old) y)) ∧
    (∀ gs z, workHead s .fe q 0x13 = some (x, c) → c.body 32 2 ≠ devOf s → loadGrans (c.body 36 4) (c.body 40 8) w = (gs, z) →
      exec (.send q) s = .next (issue (.queue .fe q) .write { blankPacket 7 (devOf z) (c.body 32 2) with
        pflags := 1 + 4 * bitNat c.genFlag, ctx := x.ctx, len := c.body 36 4, aux := c.body 34 1, granules := gs } z)) ∧
    (workHead s .fe q 0x14 = some (x, c) →
      (∀ b : Mailbox, c.body 32 1 = 1 → b = { program := x.program, event := c.body 34 2, slots := c.body 36 4, ring := c.body 40 8, delivered := 0, released := 0 } →
        exec (.mbox q) s = .next (updCtx x.ctx (fun k => { k with mailboxes := tabSet k.mailboxes (c.body 33 1) b }) w)) ∧
      (c.body 32 1 = 2 → exec (.mbox q) s = .next (updMailbox x.ctx (c.body 33 1)
        (fun b => { b with released := min b.delivered (b.released + c.body 36 4) }) w)) ∧
      (c.body 32 1 = 3 → exec (.mbox q) s =
        .next (updCtx x.ctx (fun k => { k with mailboxes := tabDel k.mailboxes (c.body 33 1) }) w))) ∧
    (workHead s .fe q 0x15 = some (x, c) →
      (readCd s (c.body 32 8) = none → exec (.exchange q) s = .next (faultQueue .fe q 9 s)) ∧
      (∀ e, readCd s (c.body 32 8) = some e → exec (.exchange q) s = .next (startExchange q x.ctx c e w))) ∧
    (∀ d z, workHead s .fe q 0x16 = some (x, c) → loadBytes (c.body 32 8) 512 s = (d, false, z) → lrdOk z d = true →
      exec (.routeExchange q) s = .next (startExchange q x.ctx c (routeSpec z d (c.body 40 1)) (markWorked .fe q z)))

/-- A transport packet that is malformed, for another module or of another OP is discarded and counted
(16_fabric_transactions.md). -/
def Obligations.PacketDiscarded : Prop :=
  ∀ (s : State) (p : Packet) (i : Instr) (op : Nat),
    (i, op) ∈ [(Instr.loadReq p, 1), (.loadResp p, 2), (.storePacket p, 3), (.storeAck p, 4), (.atomicPacket p, 5),
      (.atomicResp p, 6), (.msg p, 7), (.msgAck p, 8), (.ready p, 9), (.block p, 10), (.blockEnd p, 11), (.blockAck p, 12),
      (.inv p, 13), (.invAck p, 14)] →
    (packetClean p = false ∨ p.op ≠ op ∨ p.dstDev ≠ devOf s) → exec i s = .next (tcount 45 p.srcDev 1 s)

/-- LOAD_REQ, STORE, ATOMIC and MSG at their target: served once, answered again for a duplicate, refused with a status
(16_fabric_transactions.md). Where a clause rests on the model's own choice, that is log entry 42. -/
def Obligations.TargetRows : Prop :=
  ∀ (s : State) (p : Packet) (w : State), packetClean p = true → p.dstDev = devOf s → w = heardFrom p.srcDev s →
    (p.op = 1 → waitsHere w p = false → bitOf p.aux 0 = false →
      exec (.loadReq p) s = .next (match targetStatus w p p.addr (64 * p.len) with
        | some st => refuse p 2 st w
        | none => serveLoad p (if isDuplicate w p.srcDev p.seq then pcount 34 p.srcDev 1 p w else w))) ∧
    (p.op = 1 → waitsHere w p = false → bitOf p.aux 0 = true →
      exec (.loadReq p) s = .next (match targetStatus w p (p.addr / 32 * 32) 32 with
        | some st => refuse p 2 st w
        | none => serveLoad p (if isDuplicate w p.srcDev p.seq then pcount 34 p.srcDev 1 p w else w))) ∧
    (p.op = 3 → waitsHere w p = false → exec (.storePacket p) s =
      .next (if isDuplicate w p.srcDev p.seq then respond p 4 0 [] [] false (pcount 34 p.srcDev 1 p w)
        else match targetStatus w p p.addr (64 * p.len) with
          | some st => refuse p 4 st w
          | none => serveStore p w)) ∧
    (p.op = 5 → waitsHere w p = false → isDuplicate w p.srcDev p.seq = false → exec (.atomicPacket p) s =
      .next (match targetStatus w p p.addr 8 with
        | some st => refuse p 6 st w
        | none => serveAtomic p w)) ∧
    (p.op = 7 → waitsHere w p = false → isDuplicate w p.srcDev p.seq = true →
      exec (.msg p) s = .next (respond p 8 0 [] [] false (pcount 34 p.srcDev 1 p w))) ∧
    (∀ b, p.op = 7 → waitsHere w p = false → isDuplicate w p.srcDev p.seq = false → mailboxAt w p.ctx p.aux = some b →
      targetStatus w p (b.ring + b.delivered % b.slots * 576) 576 = none →
      (b.full = true → exec (.msg p) s = .next (refuse p 8 2 w)) ∧
      (b.full = false →
        (∀ a ∈ granAddrs (b.ring + b.delivered % b.slots * 576) (1 + p.granules.length), dirAt w a = none) →
        exec (.msg p) s = .next (respond p 8 0 [] [] false
          (noteSeq p.srcDev p.seq none (deliverMessage p.ctx p.aux p.srcDev b p.granules w)))))

/-- READY, BLOCK, BLOCK_END and BLOCK_ACK of an exchange in progress (16_fabric_transactions.md). Where a clause rests on
the model's own choice, that is log entry 42. -/
def Obligations.ExchangePackets : Prop :=
  ∀ (s : State) (p : Packet) (w : State), packetClean p = true → p.dstDev = devOf s → w = heardFrom p.srcDev s →
    exchangeBusy w = false →
    (p.op = 9 → isDuplicate w p.srcDev p.seq = false → staleInstance w p = false →
      (∀ e, exchangeAt w p.ctx (Packet.key p) (Packet.inst p) = some e → exec (.ready p) s =
        .next (answerReady p.ctx (Packet.key p) (Packet.inst p) (Packet.srcIndex p) p.addr (noteSeq p.srcDev p.seq none w))) ∧
      (exchangeAt w p.ctx (Packet.key p) (Packet.inst p) = none → w.fab.readies.length < 4096 → ∀ y, y = noteSeq p.srcDev p.seq none w →
        exec (.ready p) s = .next { y with fab := { y.fab with readies := y.fab.readies ++ [p] } })) ∧
    (∀ e ra rn, p.op = 10 → waitsHere w p = false → isDuplicate w p.srcDev p.seq = false →
      targetStatus w p p.addr (64 * p.granules.length) = none →
      (∀ a ∈ granAddrs p.addr p.granules.length, dirAt w a = none) → exchangeAt w p.ctx (Packet.key p) (Packet.inst p) = some e →
      e.recvs.getD (Packet.srcIndex p) (0, 0) = (ra, rn) → ra ≤ p.addr → p.granules.length ≤ rn - (p.addr - ra) / 64 →
      exec (.block p) s = .next (respond p 12 0 [] [] false (noteSeq p.srcDev p.seq none
        (updExchange p.ctx (Packet.key p) (Packet.inst p) (fun e => { e with
          got := tabSet e.got (Packet.srcIndex p) (tabNat e.got (Packet.srcIndex p) + p.granules.length) })
          (putGrans p.addr p.granules (readyAnswered p w)))))) ∧
    (∀ e, p.op = 11 → isDuplicate w p.srcDev p.seq = false → exchangeAt w p.ctx (Packet.key p) (Packet.inst p) = some e →
      exec (.blockEnd p) s = .next (respond p 12 0 [] [] false (noteSeq p.srcDev p.seq none
        (updExchange p.ctx (Packet.key p) (Packet.inst p) (fun e => { e with ends := tabSet e.ends (Packet.srcIndex p) (fieldAt p.control 0 4) })
          (readyAnswered p w))))) ∧
    (∀ i ∈ [Instr.block p, .blockEnd p], p.op = (if i = .block p then 10 else 11) → waitsHere w p = false → isDuplicate w p.srcDev p.seq = true →
      exec i s = .next (respond p 12 0 [] [] false (pcount 34 p.srcDev 1 p w))) ∧
    (∀ r ctx key inst d, p.op = 12 → p.status = 0 → requestFor w p = some r → r.use = .exchange ctx key inst d → r.pkt.op = 11 →
      exec (.blockAck p) s =
        .next (takeResponse p [] none (updExchange ctx key inst (fun e => { e with acked := e.acked ++ [d] }) w)))

/-- LOAD_RESP, STORE_ACK, ATOMIC_RESP and MSG_ACK: matched to their request, discarded when there is none, kept for a resend
when BUSY (16_fabric_transactions.md). Where a clause rests on the model's own choice, that is log entry 42. -/
def Obligations.ResponseRows : Prop :=
  ∀ (s : State) (p : Packet) (w : State) (i : Instr) (op : Nat) (gs : List Granule) (old : Option Nat),
    packetClean p = true → p.dstDev = devOf s → w = heardFrom p.srcDev s → p.op = op →
    (i, op, gs, old) ∈ [(Instr.loadResp p, 2, p.granules, none), (.storeAck p, 4, [], none), (.msgAck p, 8, [], none),
      (.atomicResp p, 6, [], if fieldAt p.control 8 8 = 0 then some (fieldAt p.control 0 8) else none)] →
    (requestFor w p = none → exec i s = .next (pcount 35 p.srcDev 1 p w)) ∧
    (∀ r, requestFor w p = some r → p.status = 2 → exec i s = .next { w with fab := { w.fab with
      requests := w.fab.requests.map (fun x =>
        if x.pkt.dstDev = r.pkt.dstDev ∧ x.pkt.seq = r.pkt.seq then { x with busy := true } else x) } }) ∧
    (∀ r, requestFor w p = some r → p.status = 0 → exec i s =
      .next (afterRequest r (placeAnswer r gs old (Packet.cache p) (countAck r (dropRequest r w))))) ∧
    (∀ r, requestFor w p = some r → p.status ≠ 0 → p.status ≠ 2 → exec i s =
      .next (afterRequest r (placeAnswer r (List.replicate (max 1 r.pkt.len) poisonGran) none false
        (fabricErr p.status (r.pkt.dstDev * 2 ^ 42 + r.pkt.addr) r.pkt.ctx (countAck r (dropRequest r w))))))

/-- INV, INV_ACK, DROP_NOTICE and RETX_TIMEOUT: copies go, the sharer is gone, a request is resent or fails
(16_fabric_transactions.md, 18_integrity_map.md). Where a clause rests on the model's own choice, those are log entries
42 and 75. -/
def Obligations.CoherenceRows : Prop :=
  (∀ (s : State) (p : Packet), packetClean p = true → p.dstDev = devOf s → p.op = 13 → ∃ t, exec (.inv p) s =
      .next (respond p 14 0 [] [] false (noteSeq p.srcDev p.seq none t)) ∧
      t.fab.copies = s.fab.copies.filter (fun c => !(c.home == p.srcDev && c.addr == p.addr)) ∧
      (∀ k, k ∈ s.fab.staleFills → k ∈ t.fab.staleFills) ∧ t.mem = s.mem ∧ t.contexts = s.contexts) ∧
  (∀ (s : State) (p : Packet) (w : State), packetClean p = true → p.dstDev = devOf s → w = heardFrom p.srcDev s → p.op = 14 →
    (requestFor w p = none → exec (.invAck p) s = .next (pcount 35 p.srcDev 1 p w)) ∧
    (∀ r, requestFor w p = some r → r.pkt.op = 13 → exec (.invAck p) s =
      .next (dropSharer r.pkt.addr (slotOfDev p.srcDev) (takeResponse p [] none w)))) ∧
  (∀ (s : State) (home : Nat), exec (.dropNotice home) s =
    .next (if (neighbours s).contains home then emit (.dropAck home) (dropCopies home s) else s)) ∧
  (∀ (s : State) (dst seq : Nat),
    (s.fab.requests.find? (fun r => r.pkt.dstDev == dst && r.pkt.seq == seq) = none → exec (.retxTimeout dst seq) s = .next s) ∧
    (∀ r, s.fab.requests.find? (fun r => r.pkt.dstDev == dst && r.pkt.seq == seq) = some r →
      (r.busy = true → exec (.retxTimeout dst seq) s =
        .next (retxSlip r.owner (resend r r.alternate r.attempts (pcount 32 dst 1 r.pkt s)))) ∧
      (r.busy = false → r.attempts < 2 → noRoute s dst r.pkt.addr = false → r.attempts < retxMax s →
        exec (.retxTimeout dst seq) s =
          .next (retxSlip r.owner (resend r (!r.alternate) (r.attempts + 1) (pcount 30 dst 1 r.pkt s)))) ∧
      (r.busy = false → r.attempts < 2 → noRoute s dst r.pkt.addr = false → retxMax s ≤ r.attempts →
        exec (.retxTimeout dst seq) s = .next (failRequest r s)) ∧
      (r.busy = false → 2 ≤ r.attempts → ∀ y, y = skipDead (markUnreachable dst s) → exec (.retxTimeout dst seq) s =
        .next (if retxMax y ≤ r.attempts then failRequest r y
          else retxSlip r.owner (resend r (!r.alternate) (r.attempts + 1) (pcount 30 dst 1 r.pkt y))))))

/-- DIE_FLOOR_STEP: above DIE_THR the floor rises by 8 to at most 56, below the falling threshold it falls by 8 to 0 (R440). -/
def Obligations.DieFloor : Prop :=
  ∀ (s : State), powerRuns s = true → s.pwr.temps ≠ [] → ∃ t, exec .dieFloorStep s = .next t ∧
    ((∃ r ∈ s.pwr.temps, dieThr s < r) → t.pwr.dieFloor = min 56 (s.pwr.dieFloor + 8)) ∧
    ((∀ r ∈ s.pwr.temps, r + dieHyst s < dieThr s) → t.pwr.dieFloor = s.pwr.dieFloor - 8) ∧
    (¬(∃ r ∈ s.pwr.temps, dieThr s < r) → ¬(∀ r ∈ s.pwr.temps, r + dieHyst s < dieThr s) → t.pwr.dieFloor = s.pwr.dieFloor) ∧
    (s.pwr.dieFloor ≤ 56 → t.pwr.dieFloor ≤ 56)

/-- CONTROL_INTERVAL, BRAKE_N, the input warning and the regulator alerts: what each sets, and what reasons then act
(19_power_and_cooling.md). Where a clause rests on the model's own choice, that is log entry 54. -/
def Obligations.PowerRows : Prop :=
  ∀ (s : State),
    (∀ v i w, powerRuns s = false → exec (.controlInterval v i w) s = .next s) ∧
    (∀ v i w recent x y z n, powerRuns s = true → recent = (w :: s.pwr.recent).take 100 →
      x = { s with pwr := { s.pwr with
        pIn := min 65535 w, vIn := min 65535 v, iIn := i, recent := recent,
        capActive := capRule recent (sustainedCap s) s.pwr.capActive, capAlone := capRule recent s.pwr.cap s.pwr.capAlone,
        framePeak := max s.pwr.framePeak w,
        reasons := s.pwr.reasons.map (fun r => if r.active then { r with duration := (r.duration + 1000) % 2 ^ 64 } else r),
        clock := if inHerd s then s.pwr.clock else 0 } } →
      y = ((x.pwr.capAlone && decide (bubbleLaw s.fuse.baseW w s.pwr.n (s.pwr.cap * 100) ≠ 0)) ||
        decide (bubbleLaw s.fuse.baseW w s.pwr.n 780000 ≠ 0)) →
      z = decide (bubbleLaw s.fuse.baseW w s.pwr.n (currentLimit s * v) ≠ 0) →
      n = max (bubbleLaw s.fuse.baseW w s.pwr.n (lowestTarget x v)) (max s.pwr.dieFloor (if s.pwr.forced then 56 else 0)) →
      exec (.controlInterval v i w) s = .next (noteReasons (setReason 2 z (setReason 1 y
        { x with pwr := { x.pwr with n := n, frameCapped := s.pwr.frameCapped || ((y || z) && decide (n ≠ 0)) } })))) ∧
    (∀ ns, s.boot.mode ≠ .off →
      (1000 ≤ ns → exec (.brakeN true ns) s = .next (noteReasons { s with pwr := { s.pwr with brake := true, capActive := true } })) ∧
      (ns < 1000 → exec (.brakeN true ns) s = .next s) ∧
      exec (.brakeN false ns) s = .next (noteReasons { s with pwr := { s.pwr with brake := false } })) ∧
    (∀ v, s.boot.mode ≠ .off →
      (v < uvWarn s * 100 → exec (.inputUv v) s = .next (noteReasons { s with pwr := { s.pwr with uv := true, capActive := true } })) ∧
      (uvWarn s * 100 ≤ v → exec (.inputUv v) s = .next s)) ∧
    (∀ v, ((uvWarn s + 1) * 100 < v → exec (.inputUvClear v) s = .next (noteReasons { s with pwr := { s.pwr with uv := false } })) ∧
      (v ≤ (uvWarn s + 1) * 100 → exec (.inputUvClear v) s = .next s)) ∧
    (∀ r, s.boot.mode ≠ .off → exec (.vrAlert r) s = .next (noteReasons { s with pwr := { s.pwr with
      n := 56, forced := true, alerts := if r ∈ s.pwr.alerts then s.pwr.alerts else r :: s.pwr.alerts } })) ∧
    (∀ r a, a = s.pwr.alerts.filter (fun x => decide (x ≠ r)) → exec (.vrAlertClear r) s =
      .next (noteReasons { s with pwr := { s.pwr with alerts := a, forced := !a.isEmpty || s.pwr.thermalPending } }))

/-- DIE_TEMP_READING, THERMAL_RESET, FLOW_FAIL and FLOW_HOLD_END: the lowest state at 115 C, the thermal reset, the stop
(19_power_and_cooling.md, 21_start_up_and_recovery.md). Where a clause rests on the model's own choice, those are log
entries 18, 36 and 54. -/
def Obligations.ThermalRows : Prop :=
  ∀ (s : State),
    (∀ ts hot w, powerRuns s = true → hot = ts.any (fun t => decide (115 ≤ t)) → w = noteReasons { s with pwr := { s.pwr with
        temps := ts, thermalPending := hot, forced := hot || !s.pwr.alerts.isEmpty, n := if hot then 56 else s.pwr.n } } →
      (w.boot.mode = .rom → w.boot.hold = 8 → (∀ t ∈ ts, t + 10 < dieThr w) → exec (.dieTempReading ts) s =
        .next (beginTraining (faultEdge w { w with boot := { w.boot with thermalHold := false, faultHeld := false } }))) ∧
      (w.boot.mode ≠ .rom ∨ w.boot.hold ≠ 8 ∨ (∃ t ∈ ts, dieThr w ≤ t + 10) → exec (.dieTempReading ts) s = .next w)) ∧
    (powerRuns s = true → s.pwr.thermalPending = true → (∃ t ∈ s.pwr.temps, 115 ≤ t) → exec .thermalReset s = .next (resetAll 3 s)) ∧
    (powerRuns s = false ∨ s.pwr.thermalPending = false ∨ (∀ t ∈ s.pwr.temps, t < 115) → exec .thermalReset s = .next s) ∧
    (∀ ns, ns < 10000 → exec (.flowFail ns) s = .next s) ∧
    (∀ ns w, 10000 ≤ ns → w = { s with boot := { s.boot with flowLow := true } } →
      (s.boot.mode = .off → exec (.flowFail ns) s = .next w) ∧
      (s.boot.mode = .rom → s.boot.training = true → exec (.flowFail ns) s = .next (enterHold 9
        { w with mem := { s.mem with stackStates := s.mem.stackStates.map (fun k => { k with selfRefresh := true }) } })) ∧
      (s.boot.mode = .rom → s.boot.training = false → exec (.flowFail ns) s = .next w) ∧
      (s.boot.mode ≠ .rom → s.boot.mode ≠ .off → s.pwr.stopped = true → exec (.flowFail ns) s = .next w) ∧
      (s.boot.mode ≠ .rom → s.boot.mode ≠ .off → s.pwr.stopped = false → exec (.flowFail ns) s = .next (flowStop w))) ∧
    (∀ w, w = { s with boot := { s.boot with flowLow := false } } →
      (s.boot.mode = .rom → s.boot.hold = 9 → exec .flowHoldEnd s = .next (beginTraining
        { w with mem := { s.mem with stackStates := s.mem.stackStates.map (fun k => { k with selfRefresh := false }) } })) ∧
      (s.boot.mode ≠ .rom ∨ s.boot.hold ≠ 9 → exec .flowHoldEnd s = .next w))

/-- INPUT_LOCKOUT, INPUT_QUALIFIED, RAILS_UP, PERST_N and its release, MODULE_RESET, DOMAIN_RELEASE: what each leaves
(20_clock_crossings_and_reset.md, 21_start_up_and_recovery.md, 19_power_and_cooling.md,
25_module_interface_and_electrical.md). Where a clause rests on the model's own choice, those are log entries 2, 10, 31,
36 and 37. -/
def Obligations.InputRows : Prop :=
  ∀ (s : State),
    (∀ v, 7200 < v → exec (.inputLockout v) s = .fault .inputDamage ∧ exec (.inputQualified v) s = .fault .inputDamage) ∧
    (∀ v, v ≤ 7200 → (v < 4200 ∨ 6400 < v) → exec (.inputLockout v) s = .next (faultEdge s (powerOff s)) ∧
      (powerOff s).boot.mode = .off ∧ (powerOff s).mem = MemState.reset ∧ (powerOff s).fuse = s.fuse ∧ (powerOff s).host = { s.host with held := [] } ∧
      (powerOff s).contexts = []) ∧
    (∀ v, 4200 ≤ v → v ≤ 6400 → exec (.inputLockout v) s = .next s) ∧
    (∀ v, s.boot.mode = .off → 4400 ≤ v → v ≤ 6000 → exec (.inputQualified v) s = .next { s with boot := { s.boot with inputOn := true } }) ∧
    (∀ v, v ≤ 7200 → (s.boot.mode ≠ .off ∨ v < 4400 ∨ 6000 < v) → exec (.inputQualified v) s = .next s) ∧
    (s.boot.mode = .off → s.boot.inputOn = true → exec .railsUp s = .next { s with boot := { s.boot with
      mode := .rom, railsUp := true, lastReset := 0, released := if s.boot.perstLow then 0 else 2 } }) ∧
    (s.boot.mode ≠ .off ∨ s.boot.inputOn = false → exec .railsUp s = .next s) ∧
    (∀ n, 1200 ≤ n → s.boot.perstLow = false →
      exec (.perstN n) s = .next (resetAll 1 { s with boot := { s.boot with perstLow := true, lastReset := 1 } })) ∧
    (∀ n, n < 800 → exec (.perstN n) s = .next s) ∧
    (∀ n, 800 ≤ n → n < 1200 → ∃ t, exec (.perstN n) s = .next t ∧ (t = { s with free := s.free + 1 } ∨
      t = resetAll 1 { s with free := s.free + 1, boot := { s.boot with perstLow := true, lastReset := 1 } })) ∧
    (s.boot.perstLow = true → exec .perstNRelease s = .next { s with boot := { s.boot with
      perstLow := false, released := if s.boot.mode = .off then 0 else 2 } }) ∧
    (∀ c, s.boot.mode = .off → exec (.moduleReset c) s = .next s) ∧
    (∀ c, s.boot.mode ≠ .off → ∃ t, exec (.moduleReset c) s = .next t ∧ t.boot.mode = .rom ∧ t.boot.hold = 0 ∧ t.contexts = [] ∧
      t.cmds = [] ∧ t.streams = [] ∧ t.eng.queues = [] ∧ t.mem = MemState.reset ∧ t.regs = Regs.reset ∧ t.host = { s.host with held := [] } ∧
      t.fuse = s.fuse ∧ t.boot.straps = s.boot.straps ∧ t.errs.records = s.errs.records.take 64 ∧
      (s.boot.perstLow = false → t.boot.lastReset = c ∧ t.boot.released = 2) ∧ (s.boot.perstLow = true → t.boot.released = 0)) ∧
    (∀ n, s.boot.mode ≠ .off → 2 ≤ s.boot.released → s.boot.released < releaseLimit s → n = s.boot.released + 1 →
      exec .domainRelease s = .next (faultEdge s { s with boot := { s.boot with
        released := n, faultHeld := if n = 9 then s.boot.thermalHold else s.boot.faultHeld } })) ∧
    (s.boot.mode = .off ∨ s.boot.released < 2 ∨ releaseLimit s ≤ s.boot.released → exec .domainRelease s = .next s)

/-- ROM_CHECKS and TRAINING_COMPLETE: the first check that fails is the hold, training goes to TRAINED or hold 7
(21_start_up_and_recovery.md). Where a clause rests on the model's own choice, those are log entries 37 and 63. -/
def Obligations.BootRows : Prop :=
  ∀ (s : State) (a b : Straps) (ok : Bool) (dg : List Byte) (h : Nat) (w : State), h = romHold s.fuse a b ok dg →
    w = (if h = 0 ∨ 4 ≤ h then { s with boot := { s.boot with straps := b } } else s) →
    (s.boot.mode = .rom → s.boot.released = 9 → s.boot.hold = 0 → s.boot.training = false →
      (h ≠ 0 → exec (.romChecks a b ok dg) s = .next (enterHold h w)) ∧
      (h = 0 → s.boot.thermalHold = true → exec (.romChecks a b ok dg) s = .next (enterHold 8 w)) ∧
      (h = 0 → s.boot.thermalHold = false → exec (.romChecks a b ok dg) s = .next (beginTraining w))) ∧
    (ok = false → h = 1) ∧ (ok = true → dg ≠ romDigest → h = 2) ∧ (ok = true → dg = romDigest → a ≠ b → h = 3) ∧
    (ok = true → dg = romDigest → a = b → b.bell ≠ 3 → b.linksplit ≠ 7 → bitOf s.fuse.roleMask b.role = true →
      bitOf s.fuse.linksplitMask b.linksplit = true → h = 0) ∧
    (s.boot.mode ≠ .rom ∨ s.boot.released ≠ 9 ∨ s.boot.hold ≠ 0 ∨ s.boot.training = true → exec (.romChecks a b ok dg) s = .next s) ∧
    (∀ r, s.boot.mode = .rom → s.boot.training = true →
      (r.arrayBad = true → exec (.trainingComplete r) s = .next (enterHold 7 s)) ∧
      (∀ x y z u, r.arrayBad = false → x = r.badChannels.foldl failChannel (r.badCores.foldl fenceBad s) →
        y = r.spares.foldl (fun s e => updStack (e.1 / 256) (fun k => { k with spares := k.spares ++ [(e.1 % 256, e.2)] }) s) x →
        z = { y with links := y.links.map (fun k => { k with state := 4 }) } → u = r.links.foldl (fun s r => identify r s) z →
        exec (.trainingComplete r) s = .next (breakSpan { u with boot := { u.boot with
          mode := .trained, training := false, hold := 0, ready := true } })))

/-- RECOVERY_ENTER, RECOVERY_EXIT, MEM_TEST, TELEMETRY_READ, its coarse form and ATTEST_QUOTE: what each does and delivers
(21_start_up_and_recovery.md, 05_fleos_command_set.md, 23_authority_identity_management.md). Where a clause rests on the
model's own choice, those are log entries 26, 33, 34 and 53. -/
def Obligations.HostedReports : Prop :=
  ∀ (s : State) (src : CmdSrc) (c : FleosCmd) (w : State), w = running c s →
    (runsNow s src 0x16 c → allStopped (stopContexts w) = false → exec (.recoveryEnter src) s = .next (stopContexts w)) ∧
    (runsNow s src 0x16 c → allStopped (stopContexts w) = true →
      exec (.recoveryEnter src) s = .next (enterRecovery c.order (stopContexts w))) ∧
    (cmdOf s src = some c → c.opcode = 0x16 → c.phase = .running → allStopped (stopContexts s) = true →
      exec (.recoveryEnter src) s = .next (enterRecovery c.order (stopContexts s))) ∧
    (runsNow s src 0x17 c → exec (.recoveryExit src) s =
      .next (finishOk c.order 0 (breakSpan { w with boot := { w.boot with mode := .trained } }))) ∧
    (∀ ds p seed z gs fails y, runsNow s src 0x18 c → p = fieldAt c.desc 17 1 → seed = fieldAt c.desc 48 8 → z = flushCache w →
      gs = testGrans (fieldAt c.desc 18 1) (fieldAt c.desc 24 8) (fieldAt c.desc 32 8) →
      fails = (gs.filterMap (testFailure z p ds)).mergeSort (testOrder p) →
      y = gs.foldl (fun s a => testLeave p seed (testFailure s p ds a) a s) z →
      exec (.memTest src ds) s = .next (finishOk c.order fails.length
        (hostWrite (fieldAt c.desc 40 8) ((fails.take 4096).flatMap (testRecord p seed)) y))) ∧
    (∀ i k sel len b z, (i, k) ∈ [(Instr.telemetryRead src, false), (.telemetryCoarse src, true)] → runsNow s src 0x14 c →
      sel = fieldAt c.desc 17 1 → len = fieldAt c.desc 32 4 → b = telemetryBlock w c.src sel len k → z = { w with free := w.free + 40 } →
      (b.length ≤ len → (sel = 5 → 128 ≤ len) → exec i s = .next (finish c.order 0 (bitNat k) b.length (deliver c b z))) ∧
      (len < b.length → (sel = 5 → 128 ≤ len) → exec i s = .next (finish c.order 4 0x300 b.length z)) ∧
      (sel = 5 → len < 128 → exec i s = .next (finish c.order 4 0x300 128 z))) ∧
    (runsNow s src 0x15 c → keyAwaited w = true →
      exec (.attestQuote src) s = .next (updCmd c.order (fun x => { x with phase := .waiting }) w)) ∧
    (runsNow s src 0x15 c → keyAwaited w = false → exec (.attestQuote src) s = .next (finishOk c.order
      (quote w (slice c.desc 32 32)).length (deliver c (quote w (slice c.desc 32 32)) { w with mgt := { w.mgt with quotes := w.mgt.quotes + 1 } })))

/-- The management ports, MCTP control, IDE and configuration requests: each message of a running port answered as stated
(23_authority_identity_management.md, 24_set_up_registers.md). Where a clause rests on the model's own choice, those are
log entries 2, 11, 35, 38, 39, 40 and 60. -/
def Obligations.MgtRows : Prop :=
  ∀ (s : State) (p : Nat) (g : MgtHead),
    (mgtUp s p = false → ∀ bs n m i, i ∈ [Instr.descriptor p g bs, .fetch p g n m, .mgtState p g, .mgtReset p g n,
      .debugChallenge p g n, .debugResponse p g bs, .setEndpointId p n, .getEndpointId p, .getEndpointUuid p,
      .getMctpVersionSupport p n, .getMessageTypeSupport p, .dynamicAddressAssignment p n] → exec i s = .next s) ∧
    (mgtUp s p = true → g.reserved ≠ 0 → ∀ bs n m i c, (i, c) ∈ [(Instr.descriptor p g bs, 1), (.fetch p g n m, 2), (.mgtState p g, 3),
      (.mgtReset p g n, 4), (.debugChallenge p g n, 5), (.debugResponse p g bs, 6)] → exec i s = .next (mgtReply p c 2 g.tag [] s)) ∧
    (mgtUp s p = true → g.reserved = 0 →
      (∀ bs, (portCmd s p).isSome = true → exec (.descriptor p g bs) s = .next (mgtReply p 1 1 g.tag [] s)) ∧
      (∀ bs, portCmd s p = none → exec (.descriptor p g bs) s =
        .next (acceptDesc (.mgt p) bs g.tag (updPort p (fun m => { m with outstanding := some s.nextOrder }) s))) ∧
      (∀ off n, staging s p = true → exec (.fetch p g off n) s = .next (mgtReply p 2 1 g.tag [] s)) ∧
      (∀ off n, staging s p = false → 1 ≤ n → n ≤ 1024 → off + n ≤ (mgtPort s p).staged.length →
        exec (.fetch p g off n) s = .next (mgtReply p 2 0 g.tag (slice (mgtPort s p).staged off n) s)) ∧
      (∀ off n, staging s p = false → n = 0 ∨ 1024 < n ∨ (mgtPort s p).staged.length < off + n →
        exec (.fetch p g off n) s = .next (mgtReply p 2 2 g.tag [] s)) ∧
      (exec (.mgtState p g) s = .next (mgtReply p 3 0 g.tag (stateBody s) s)) ∧
      (∀ d, bitOf s.regs.mgtCtrl 2 = false → exec (.mgtReset p g d) s = .next (mgtReply p 4 3 g.tag [] s)) ∧
      (∀ d, bitOf s.regs.mgtCtrl 2 = true → d ≠ devOf s → exec (.mgtReset p g d) s = .next (mgtReply p 4 2 g.tag [] s)) ∧
      (bitOf s.regs.mgtCtrl 2 = true → exec (.mgtReset p g (devOf s)) s = .next (resetAll 4 (mgtReply p 4 0 g.tag [] s))) ∧
      (∀ n, 8 ≤ n → exec (.debugChallenge p g n) s = .next (mgtReply p 5 2 g.tag [] s)) ∧
      (∀ n, n < 8 → debugRefusing s = true → exec (.debugChallenge p g n) s = .next (mgtReply p 5 3 g.tag [] s)) ∧
      (∀ n, n < 8 → debugRefusing s = false → exec (.debugChallenge p g n) s = .next (mgtReply p 5 0 g.tag (challengeBytes s n)
        { s with free := s.free + 32, mgt := { s.mgt with challenge := some (challengeBytes s n, s.herd.time) } })) ∧
      (∀ b, tokenGood s b = true → unlockState s = true → exec (.debugResponse p g b) s = .next (mgtReply p 6 0 g.tag []
        { s with mgt := { s.mgt with challenge := none, unlocked := true, scope := s.mgt.scope ||| fieldAt b 96 1 } })) ∧
      (∀ b, tokenGood s b = false ∨ unlockState s = false → exec (.debugResponse p g b) s = .next (mgtReply p 6 2 g.tag []
        { s with mgt := { s.mgt with challenge := none, failures := s.mgt.failures + 1 } }))) ∧
    (mgtUp s p = true →
      (∀ e, e ≠ 0 → e ≠ 255 → exec (.setEndpointId p e) s =
        .next (emit (.mctp p 0 ([0] ++ natLe 1 e ++ [0])) (updPort p (fun m => { m with eid := e }) s))) ∧
      (exec (.getEndpointId p) s = .next (emit (.mctp p 0 (natLe 1 (mgtPort s p).eid ++ [0, 0])) s)) ∧
      (exec (.getEndpointUuid p) s = .next (emit (.mctp p 0 ((List.range 16).map Config.endpointUuid)) s)) ∧
      (∀ t, t = 0 ∨ t = 0x7E ∨ t = 0xFF → exec (.getMctpVersionSupport p t) s = .next (emit (.mctp p 0 (Config.mctpVersions t)) s)) ∧
      (exec (.getMessageTypeSupport p) s = .next (emit (.mctp p 0 [1, 0x7E]) s)) ∧
      (∀ a, exec (.dynamicAddressAssignment p a) s = .next (updPort p (fun m => { m with da := some a }) s))) ∧
    (∀ st l key w, s.boot.mode ≠ .off → s.boot.ready = true → s.boot.hold ≠ 1 → ideRoom s st l = true →
      w = releaseHeld { s with mgt := { s.mgt with ide := s.mgt.ide.filter (fun k => k.number != st)
        ++ [{ number := st, link := l, secure := true, key := key.key, blocks := key.blocks }] } } →
      exec (.ideKm st l key) s =
        .next (if s.mgt.ide.any (fun k => !k.secure) = true ∧ portUp w = true then readAllDoorbells w else w)) ∧
    (∀ st, s.mgt.ide.any (fun k => k.number == st) = true → ∃ t, exec (.ideIntegrityFailure st) s = .next t ∧
      t.mgt.ideFailures = s.mgt.ideFailures + 1 ∧ (∀ k ∈ t.mgt.ide, k.number = st → k.secure = false) ∧
      t.mgt.ide.filter (fun k => k.number != st) = s.mgt.ide.filter (fun k => k.number != st) ∧ t.mgt.ports = s.mgt.ports ∧
      t.out = s.out ++ [.aer st]) ∧
    (∀ fn wr off v, s.boot.mode ≠ .off → 2 ≤ s.boot.released → fnUp s fn = true →
      (s.boot.ready = false → exec (.configurationRequest fn wr off v) s = .next (emit (.cfgRetry fn) s)) ∧
      (s.boot.ready = true → exec (.configurationRequest fn true off v) s = .next (cfgWrite fn off v s)) ∧
      (∀ x, s.boot.ready = true → cfgValue s fn off = some x →
        exec (.configurationRequest fn false off v) s = .next (emit (.cfgData fn off x) s)))

/-- Register writes: settings stored as whole registers or ignored and counted, SEC_LOCK, RING_CTRL, DBG_RESET, MGT_CTRL
(24_set_up_registers.md, 23_authority_identity_management.md, 03_host_rings_and_acceptance.md). Where a clause rests on
the model's own choice, those are log entries 29, 38 and 57. -/
def Obligations.RegisterRows : Prop :=
  ∀ (s : State) (bs : List Byte),
    (∀ off v, barUp s 0 = false → ∀ i ∈ [Instr.registerWrite 0 off bs, .secLock v, .dbgReset bs, .mgtCtrl bs, .ringCtrl 0 bs []],
      exec i s = .next s) ∧
    (barUp s 0 = true →
      (∀ off width mask v, (off, width, mask) ∈ settingsRegs → bs.length = 8 → v = leNat bs &&& mask →
        (s.regs.locked = false → (off = 0x5000 ∨ off = 0x5008 → s.contexts = []) → settingFits off v = true →
          exec (.registerWrite 0 off bs) s = .next (settingStored off (updRegs (putSetting off v) s)) ∧
          getSetting (putSetting off v s.regs) off = v) ∧
        (s.regs.locked = true ∨ ((off = 0x5000 ∨ off = 0x5008) ∧ s.contexts ≠ []) ∨ settingFits off v = false →
          exec (.registerWrite 0 off bs) s = .next { s with regs := { s.regs with
            writesIgnored := min 0xFFFFFFFF (s.regs.writesIgnored + 1) } })) ∧
      (∀ off width mask, (off, width, mask) ∈ settingsRegs → bs ≠ [] → bs.length ≠ 4 → bs.length < 8 →
        exec (.registerWrite 0 off bs) s = .next (ignoreWrite s)) ∧
      (∀ v, bitOf v 0 = true → exec (.secLock v) s = .next { s with regs := { s.regs with locked := true } }) ∧
      (∀ v, bitOf v 0 = false → exec (.secLock v) s = .next s) ∧
      (bs.length = 4 → s.regs.locked = false → exec (.mgtCtrl bs) s =
        .next (dropAddresses { s with regs := { s.regs with mgtCtrl := leNat bs % 8 } })) ∧
      (∀ w, bs.length = 4 → s.regs.locked = false → 0 < s.fns.length → w = updFn 0 (fun f => { f with enable := true }) s →
        bitOf (leNat bs) 0 = true → (fnOf s 0).enable = false →
        exec (.ringCtrl 0 bs []) s = .next (if portUp w then readDoorbells 0 w else w)) ∧
      (bs.length = 4 → s.regs.locked = false → bitOf (leNat bs) 0 = false → (fnOf s 0).enable = true → (fnOf s 0).rings ≠ [] →
        exec (.ringCtrl 0 bs []) s = .next (ignoreWrite s)) ∧
      (bs.length = 4 → s.mgt.unlocked = false ∨ bitOf s.mgt.scope 2 = false ∨ holdOrdered (leNat bs % 128) = false →
        exec (.dbgReset bs) s = .next { s with regs := { s.regs with
          dbgIgnored := min 255 (s.regs.dbgIgnored + 1), writesIgnored := min 0xFFFFFFFF (s.regs.writesIgnored + 1) } }) ∧
      (bs.length = 4 → s.mgt.unlocked = true → bitOf s.mgt.scope 2 = true → holdOrdered (leNat bs % 128) = true →
        exec (.dbgReset bs) s = .next (takeHold (leNat bs % 128) s)))

/-- A step runs the command at the front of the queue on the state with the rest of the queue; an empty queue idles for one
cycle (02_herd_time_and_frames.md). Where a clause rests on the model's own choice, that is log entry 4. -/
def Obligations.StepRunsFront : Prop :=
  ∀ (s : State),
    (∀ (c : Instr) (rest : List Instr), s.pending = c :: rest → step s = exec c { s with pending := rest }) ∧
    (s.pending = [] → (powerRuns s = false ∨ s.boot.mode = .off) → step s = .next s) ∧
    (∀ n : Nat, s.pending = [] → powerRuns s = true → s.boot.mode ≠ .off →
      (n : Int) = (s.herd.time * 2 ^ 32 + s.herd.frac + 2 ^ 32 : Nat) + s.herd.rate → n / 2 ^ 32 < 2 ^ 64 →
      step s = .next { s with herd := { s.herd with time := n / 2 ^ 32, frac := n % 2 ^ 32 } })

/-- State.reset: ROM with D0 and D1 released, every register at its Reset value, nothing open, nothing stored, and the
invariants hold (21_start_up_and_recovery.md, 20_clock_crossings_and_reset.md, 24_set_up_registers.md). Where a clause
rests on the model's own choice, those are log entries 1, 6 and 7. -/
def Obligations.ResetState : Prop :=
  State.reset.boot.mode = .rom ∧ State.reset.boot.released = 2 ∧ State.reset.boot.hold = 0 ∧ faultLow State.reset = false ∧
  (settingsRegs.map (fun r => getSetting State.reset.regs r.1)) = [0x00010014, 0x4000A01F4, 0x00030803, 0x00640A01, 0, 0x0BB81770,
    0x2EB1, 0x0364, 0, 0, 0x0069235F, 0x01900410, 0x00010614, 7] ∧
  (∀ r ∈ settingsRegs, settingFits r.1 (getSetting State.reset.regs r.1) = true) ∧
  State.reset.regs.locked = false ∧ State.reset.contexts = [] ∧ State.reset.streams = [] ∧ State.reset.cmds = [] ∧
  State.reset.eng.queues = [] ∧ State.reset.eng.tasks = [] ∧ State.reset.errs.records = [] ∧ State.reset.counters = [] ∧
  State.reset.fns.length = 17 ∧ (∀ f ∈ State.reset.fns, f.rings = [] ∧ f.enable = false) ∧
  State.reset.links.length = 64 ∧ (∀ k ∈ State.reset.links, k.state = 0) ∧ State.reset.mem.stackStates.length = 20 ∧
  State.reset.host.cells = [] ∧ State.reset.mem.cells = [] ∧ State.reset.mem.tags = [] ∧ State.reset.pending = [] ∧
  State.reset.memOk ∧ State.reset.tablesOk

/-- Every step keeps host and package memory, data and tags, in their canonical form (07_number_formats_and_granules.md,
12_memory_tiers.md). Where a clause rests on the model's own choice, that is log entry 7. -/
def Obligations.StepKeepsMemory : Prop :=
  ∀ (s t : State), s.memOk → step s = .next t → t.memOk

/-- No command but INPUT_LOCKOUT takes the module to OFF, and no step ever changes what is fused or the order of the
commands waiting (21_start_up_and_recovery.md, 23_authority_identity_management.md). -/
def Obligations.OffOnlyByLockout : Prop :=
  ∀ (s t : State), step s = .next t → t.fuse = s.fuse ∧ t.pending = s.pending.tail ∧
    (t.boot.mode = .off → s.boot.mode = .off ∨ ∃ v, s.pending.head? = some (.inputLockout v))

end
end

