-- ==== Sys2Proof/Laws/State.lean ====
section
/-! SUPPORT. What each update of one part does to every field of the state: one lemma for each field, true by rfl. -/
namespace Sys2Proof.Machine

variable (s : State)

@[simp] theorem emit_boot (o : Out) : (emit o s).boot = s.boot := rfl
@[simp] theorem emit_fuse (o : Out) : (emit o s).fuse = s.fuse := rfl
@[simp] theorem emit_regs (o : Out) : (emit o s).regs = s.regs := rfl
@[simp] theorem emit_fns (o : Out) : (emit o s).fns = s.fns := rfl
@[simp] theorem emit_host (o : Out) : (emit o s).host = s.host := rfl
@[simp] theorem emit_cmds (o : Out) : (emit o s).cmds = s.cmds := rfl
@[simp] theorem emit_nextOrder (o : Out) : (emit o s).nextOrder = s.nextOrder := rfl
@[simp] theorem emit_contexts (o : Out) : (emit o s).contexts = s.contexts := rfl
@[simp] theorem emit_streams (o : Out) : (emit o s).streams = s.streams := rfl
@[simp] theorem emit_slotUses (o : Out) : (emit o s).slotUses = s.slotUses := rfl
@[simp] theorem emit_due (o : Out) : (emit o s).due = s.due := rfl
@[simp] theorem emit_eng (o : Out) : (emit o s).eng = s.eng := rfl
@[simp] theorem emit_mem (o : Out) : (emit o s).mem = s.mem := rfl
@[simp] theorem emit_links (o : Out) : (emit o s).links = s.links := rfl
@[simp] theorem emit_fab (o : Out) : (emit o s).fab = s.fab := rfl
@[simp] theorem emit_herd (o : Out) : (emit o s).herd = s.herd := rfl
@[simp] theorem emit_errs (o : Out) : (emit o s).errs = s.errs := rfl
@[simp] theorem emit_pwr (o : Out) : (emit o s).pwr = s.pwr := rfl
@[simp] theorem emit_mgt (o : Out) : (emit o s).mgt = s.mgt := rfl
@[simp] theorem emit_counters (o : Out) : (emit o s).counters = s.counters := rfl
@[simp] theorem emit_tally (o : Out) : (emit o s).tally = s.tally := rfl
@[simp] theorem emit_free (o : Out) : (emit o s).free = s.free := rfl
@[simp] theorem emit_out (o : Out) : (emit o s).out = s.out ++ [o] := rfl
@[simp] theorem emit_pending (o : Out) : (emit o s).pending = s.pending := rfl

@[simp] theorem bump_boot (g i c n : Nat) : (bump g i c n s).boot = s.boot := rfl
@[simp] theorem bump_fuse (g i c n : Nat) : (bump g i c n s).fuse = s.fuse := rfl
@[simp] theorem bump_regs (g i c n : Nat) : (bump g i c n s).regs = s.regs := rfl
@[simp] theorem bump_fns (g i c n : Nat) : (bump g i c n s).fns = s.fns := rfl
@[simp] theorem bump_host (g i c n : Nat) : (bump g i c n s).host = s.host := rfl
@[simp] theorem bump_cmds (g i c n : Nat) : (bump g i c n s).cmds = s.cmds := rfl
@[simp] theorem bump_nextOrder (g i c n : Nat) : (bump g i c n s).nextOrder = s.nextOrder := rfl
@[simp] theorem bump_contexts (g i c n : Nat) : (bump g i c n s).contexts = s.contexts := rfl
@[simp] theorem bump_streams (g i c n : Nat) : (bump g i c n s).streams = s.streams := rfl
@[simp] theorem bump_slotUses (g i c n : Nat) : (bump g i c n s).slotUses = s.slotUses := rfl
@[simp] theorem bump_due (g i c n : Nat) : (bump g i c n s).due = s.due := rfl
@[simp] theorem bump_eng (g i c n : Nat) : (bump g i c n s).eng = s.eng := rfl
@[simp] theorem bump_mem (g i c n : Nat) : (bump g i c n s).mem = s.mem := rfl
@[simp] theorem bump_links (g i c n : Nat) : (bump g i c n s).links = s.links := rfl
@[simp] theorem bump_fab (g i c n : Nat) : (bump g i c n s).fab = s.fab := rfl
@[simp] theorem bump_herd (g i c n : Nat) : (bump g i c n s).herd = s.herd := rfl
@[simp] theorem bump_errs (g i c n : Nat) : (bump g i c n s).errs = s.errs := rfl
@[simp] theorem bump_pwr (g i c n : Nat) : (bump g i c n s).pwr = s.pwr := rfl
@[simp] theorem bump_mgt (g i c n : Nat) : (bump g i c n s).mgt = s.mgt := rfl
@[simp] theorem bump_tally (g i c n : Nat) : (bump g i c n s).tally = s.tally := rfl
@[simp] theorem bump_free (g i c n : Nat) : (bump g i c n s).free = s.free := rfl
@[simp] theorem bump_out (g i c n : Nat) : (bump g i c n s).out = s.out := rfl
@[simp] theorem bump_pending (g i c n : Nat) : (bump g i c n s).pending = s.pending := rfl

@[simp] theorem setCounter_boot (g i c n : Nat) : (setCounter g i c n s).boot = s.boot := rfl
@[simp] theorem setCounter_fuse (g i c n : Nat) : (setCounter g i c n s).fuse = s.fuse := rfl
@[simp] theorem setCounter_regs (g i c n : Nat) : (setCounter g i c n s).regs = s.regs := rfl
@[simp] theorem setCounter_fns (g i c n : Nat) : (setCounter g i c n s).fns = s.fns := rfl
@[simp] theorem setCounter_host (g i c n : Nat) : (setCounter g i c n s).host = s.host := rfl
@[simp] theorem setCounter_cmds (g i c n : Nat) : (setCounter g i c n s).cmds = s.cmds := rfl
@[simp] theorem setCounter_nextOrder (g i c n : Nat) : (setCounter g i c n s).nextOrder = s.nextOrder := rfl
@[simp] theorem setCounter_contexts (g i c n : Nat) : (setCounter g i c n s).contexts = s.contexts := rfl
@[simp] theorem setCounter_streams (g i c n : Nat) : (setCounter g i c n s).streams = s.streams := rfl
@[simp] theorem setCounter_slotUses (g i c n : Nat) : (setCounter g i c n s).slotUses = s.slotUses := rfl
@[simp] theorem setCounter_due (g i c n : Nat) : (setCounter g i c n s).due = s.due := rfl
@[simp] theorem setCounter_eng (g i c n : Nat) : (setCounter g i c n s).eng = s.eng := rfl
@[simp] theorem setCounter_mem (g i c n : Nat) : (setCounter g i c n s).mem = s.mem := rfl
@[simp] theorem setCounter_links (g i c n : Nat) : (setCounter g i c n s).links = s.links := rfl
@[simp] theorem setCounter_fab (g i c n : Nat) : (setCounter g i c n s).fab = s.fab := rfl
@[simp] theorem setCounter_herd (g i c n : Nat) : (setCounter g i c n s).herd = s.herd := rfl
@[simp] theorem setCounter_errs (g i c n : Nat) : (setCounter g i c n s).errs = s.errs := rfl
@[simp] theorem setCounter_pwr (g i c n : Nat) : (setCounter g i c n s).pwr = s.pwr := rfl
@[simp] theorem setCounter_mgt (g i c n : Nat) : (setCounter g i c n s).mgt = s.mgt := rfl
@[simp] theorem setCounter_counters (g i c n : Nat) : (setCounter g i c n s).counters = tabPut s.counters (counterKey g i c) n := rfl
@[simp] theorem setCounter_tally (g i c n : Nat) : (setCounter g i c n s).tally = s.tally := rfl
@[simp] theorem setCounter_free (g i c n : Nat) : (setCounter g i c n s).free = s.free := rfl
@[simp] theorem setCounter_out (g i c n : Nat) : (setCounter g i c n s).out = s.out := rfl
@[simp] theorem setCounter_pending (g i c n : Nat) : (setCounter g i c n s).pending = s.pending := rfl

@[simp] theorem updFn_boot (f : Nat) (g : FnState → FnState) : (updFn f g s).boot = s.boot := rfl
@[simp] theorem updFn_fuse (f : Nat) (g : FnState → FnState) : (updFn f g s).fuse = s.fuse := rfl
@[simp] theorem updFn_regs (f : Nat) (g : FnState → FnState) : (updFn f g s).regs = s.regs := rfl
@[simp] theorem updFn_fns (f : Nat) (g : FnState → FnState) : (updFn f g s).fns = s.fns.modify f g := rfl
@[simp] theorem updFn_host (f : Nat) (g : FnState → FnState) : (updFn f g s).host = s.host := rfl
@[simp] theorem updFn_cmds (f : Nat) (g : FnState → FnState) : (updFn f g s).cmds = s.cmds := rfl
@[simp] theorem updFn_nextOrder (f : Nat) (g : FnState → FnState) : (updFn f g s).nextOrder = s.nextOrder := rfl
@[simp] theorem updFn_contexts (f : Nat) (g : FnState → FnState) : (updFn f g s).contexts = s.contexts := rfl
@[simp] theorem updFn_streams (f : Nat) (g : FnState → FnState) : (updFn f g s).streams = s.streams := rfl
@[simp] theorem updFn_slotUses (f : Nat) (g : FnState → FnState) : (updFn f g s).slotUses = s.slotUses := rfl
@[simp] theorem updFn_due (f : Nat) (g : FnState → FnState) : (updFn f g s).due = s.due := rfl
@[simp] theorem updFn_eng (f : Nat) (g : FnState → FnState) : (updFn f g s).eng = s.eng := rfl
@[simp] theorem updFn_mem (f : Nat) (g : FnState → FnState) : (updFn f g s).mem = s.mem := rfl
@[simp] theorem updFn_links (f : Nat) (g : FnState → FnState) : (updFn f g s).links = s.links := rfl
@[simp] theorem updFn_fab (f : Nat) (g : FnState → FnState) : (updFn f g s).fab = s.fab := rfl
@[simp] theorem updFn_herd (f : Nat) (g : FnState → FnState) : (updFn f g s).herd = s.herd := rfl
@[simp] theorem updFn_errs (f : Nat) (g : FnState → FnState) : (updFn f g s).errs = s.errs := rfl
@[simp] theorem updFn_pwr (f : Nat) (g : FnState → FnState) : (updFn f g s).pwr = s.pwr := rfl
@[simp] theorem updFn_mgt (f : Nat) (g : FnState → FnState) : (updFn f g s).mgt = s.mgt := rfl
@[simp] theorem updFn_counters (f : Nat) (g : FnState → FnState) : (updFn f g s).counters = s.counters := rfl
@[simp] theorem updFn_tally (f : Nat) (g : FnState → FnState) : (updFn f g s).tally = s.tally := rfl
@[simp] theorem updFn_free (f : Nat) (g : FnState → FnState) : (updFn f g s).free = s.free := rfl
@[simp] theorem updFn_out (f : Nat) (g : FnState → FnState) : (updFn f g s).out = s.out := rfl
@[simp] theorem updFn_pending (f : Nat) (g : FnState → FnState) : (updFn f g s).pending = s.pending := rfl

@[simp] theorem updRing_boot (f n : Nat) (g : Ring → Ring) : (updRing f n g s).boot = s.boot := rfl
@[simp] theorem updRing_fuse (f n : Nat) (g : Ring → Ring) : (updRing f n g s).fuse = s.fuse := rfl
@[simp] theorem updRing_regs (f n : Nat) (g : Ring → Ring) : (updRing f n g s).regs = s.regs := rfl
@[simp] theorem updRing_host (f n : Nat) (g : Ring → Ring) : (updRing f n g s).host = s.host := rfl
@[simp] theorem updRing_cmds (f n : Nat) (g : Ring → Ring) : (updRing f n g s).cmds = s.cmds := rfl
@[simp] theorem updRing_nextOrder (f n : Nat) (g : Ring → Ring) : (updRing f n g s).nextOrder = s.nextOrder := rfl
@[simp] theorem updRing_contexts (f n : Nat) (g : Ring → Ring) : (updRing f n g s).contexts = s.contexts := rfl
@[simp] theorem updRing_streams (f n : Nat) (g : Ring → Ring) : (updRing f n g s).streams = s.streams := rfl
@[simp] theorem updRing_slotUses (f n : Nat) (g : Ring → Ring) : (updRing f n g s).slotUses = s.slotUses := rfl
@[simp] theorem updRing_due (f n : Nat) (g : Ring → Ring) : (updRing f n g s).due = s.due := rfl
@[simp] theorem updRing_eng (f n : Nat) (g : Ring → Ring) : (updRing f n g s).eng = s.eng := rfl
@[simp] theorem updRing_mem (f n : Nat) (g : Ring → Ring) : (updRing f n g s).mem = s.mem := rfl
@[simp] theorem updRing_links (f n : Nat) (g : Ring → Ring) : (updRing f n g s).links = s.links := rfl
@[simp] theorem updRing_fab (f n : Nat) (g : Ring → Ring) : (updRing f n g s).fab = s.fab := rfl
@[simp] theorem updRing_herd (f n : Nat) (g : Ring → Ring) : (updRing f n g s).herd = s.herd := rfl
@[simp] theorem updRing_errs (f n : Nat) (g : Ring → Ring) : (updRing f n g s).errs = s.errs := rfl
@[simp] theorem updRing_pwr (f n : Nat) (g : Ring → Ring) : (updRing f n g s).pwr = s.pwr := rfl
@[simp] theorem updRing_mgt (f n : Nat) (g : Ring → Ring) : (updRing f n g s).mgt = s.mgt := rfl
@[simp] theorem updRing_counters (f n : Nat) (g : Ring → Ring) : (updRing f n g s).counters = s.counters := rfl
@[simp] theorem updRing_tally (f n : Nat) (g : Ring → Ring) : (updRing f n g s).tally = s.tally := rfl
@[simp] theorem updRing_free (f n : Nat) (g : Ring → Ring) : (updRing f n g s).free = s.free := rfl
@[simp] theorem updRing_out (f n : Nat) (g : Ring → Ring) : (updRing f n g s).out = s.out := rfl
@[simp] theorem updRing_pending (f n : Nat) (g : Ring → Ring) : (updRing f n g s).pending = s.pending := rfl

@[simp] theorem updCtx_boot (c : Nat) (g : Context → Context) : (updCtx c g s).boot = s.boot := rfl
@[simp] theorem updCtx_fuse (c : Nat) (g : Context → Context) : (updCtx c g s).fuse = s.fuse := rfl
@[simp] theorem updCtx_regs (c : Nat) (g : Context → Context) : (updCtx c g s).regs = s.regs := rfl
@[simp] theorem updCtx_fns (c : Nat) (g : Context → Context) : (updCtx c g s).fns = s.fns := rfl
@[simp] theorem updCtx_host (c : Nat) (g : Context → Context) : (updCtx c g s).host = s.host := rfl
@[simp] theorem updCtx_cmds (c : Nat) (g : Context → Context) : (updCtx c g s).cmds = s.cmds := rfl
@[simp] theorem updCtx_nextOrder (c : Nat) (g : Context → Context) : (updCtx c g s).nextOrder = s.nextOrder := rfl
@[simp] theorem updCtx_contexts (c : Nat) (g : Context → Context) : (updCtx c g s).contexts = tabUpd s.contexts c g := rfl
@[simp] theorem updCtx_streams (c : Nat) (g : Context → Context) : (updCtx c g s).streams = s.streams := rfl
@[simp] theorem updCtx_slotUses (c : Nat) (g : Context → Context) : (updCtx c g s).slotUses = s.slotUses := rfl
@[simp] theorem updCtx_due (c : Nat) (g : Context → Context) : (updCtx c g s).due = s.due := rfl
@[simp] theorem updCtx_eng (c : Nat) (g : Context → Context) : (updCtx c g s).eng = s.eng := rfl
@[simp] theorem updCtx_mem (c : Nat) (g : Context → Context) : (updCtx c g s).mem = s.mem := rfl
@[simp] theorem updCtx_links (c : Nat) (g : Context → Context) : (updCtx c g s).links = s.links := rfl
@[simp] theorem updCtx_fab (c : Nat) (g : Context → Context) : (updCtx c g s).fab = s.fab := rfl
@[simp] theorem updCtx_herd (c : Nat) (g : Context → Context) : (updCtx c g s).herd = s.herd := rfl
@[simp] theorem updCtx_errs (c : Nat) (g : Context → Context) : (updCtx c g s).errs = s.errs := rfl
@[simp] theorem updCtx_pwr (c : Nat) (g : Context → Context) : (updCtx c g s).pwr = s.pwr := rfl
@[simp] theorem updCtx_mgt (c : Nat) (g : Context → Context) : (updCtx c g s).mgt = s.mgt := rfl
@[simp] theorem updCtx_counters (c : Nat) (g : Context → Context) : (updCtx c g s).counters = s.counters := rfl
@[simp] theorem updCtx_tally (c : Nat) (g : Context → Context) : (updCtx c g s).tally = s.tally := rfl
@[simp] theorem updCtx_free (c : Nat) (g : Context → Context) : (updCtx c g s).free = s.free := rfl
@[simp] theorem updCtx_out (c : Nat) (g : Context → Context) : (updCtx c g s).out = s.out := rfl
@[simp] theorem updCtx_pending (c : Nat) (g : Context → Context) : (updCtx c g s).pending = s.pending := rfl

@[simp] theorem updProg_boot (c p : Nat) (g : Program → Program) : (updProg c p g s).boot = s.boot := rfl
@[simp] theorem updProg_fuse (c p : Nat) (g : Program → Program) : (updProg c p g s).fuse = s.fuse := rfl
@[simp] theorem updProg_regs (c p : Nat) (g : Program → Program) : (updProg c p g s).regs = s.regs := rfl
@[simp] theorem updProg_fns (c p : Nat) (g : Program → Program) : (updProg c p g s).fns = s.fns := rfl
@[simp] theorem updProg_host (c p : Nat) (g : Program → Program) : (updProg c p g s).host = s.host := rfl
@[simp] theorem updProg_cmds (c p : Nat) (g : Program → Program) : (updProg c p g s).cmds = s.cmds := rfl
@[simp] theorem updProg_nextOrder (c p : Nat) (g : Program → Program) : (updProg c p g s).nextOrder = s.nextOrder := rfl
@[simp] theorem updProg_streams (c p : Nat) (g : Program → Program) : (updProg c p g s).streams = s.streams := rfl
@[simp] theorem updProg_slotUses (c p : Nat) (g : Program → Program) : (updProg c p g s).slotUses = s.slotUses := rfl
@[simp] theorem updProg_due (c p : Nat) (g : Program → Program) : (updProg c p g s).due = s.due := rfl
@[simp] theorem updProg_eng (c p : Nat) (g : Program → Program) : (updProg c p g s).eng = s.eng := rfl
@[simp] theorem updProg_mem (c p : Nat) (g : Program → Program) : (updProg c p g s).mem = s.mem := rfl
@[simp] theorem updProg_links (c p : Nat) (g : Program → Program) : (updProg c p g s).links = s.links := rfl
@[simp] theorem updProg_fab (c p : Nat) (g : Program → Program) : (updProg c p g s).fab = s.fab := rfl
@[simp] theorem updProg_herd (c p : Nat) (g : Program → Program) : (updProg c p g s).herd = s.herd := rfl
@[simp] theorem updProg_errs (c p : Nat) (g : Program → Program) : (updProg c p g s).errs = s.errs := rfl
@[simp] theorem updProg_pwr (c p : Nat) (g : Program → Program) : (updProg c p g s).pwr = s.pwr := rfl
@[simp] theorem updProg_mgt (c p : Nat) (g : Program → Program) : (updProg c p g s).mgt = s.mgt := rfl
@[simp] theorem updProg_counters (c p : Nat) (g : Program → Program) : (updProg c p g s).counters = s.counters := rfl
@[simp] theorem updProg_tally (c p : Nat) (g : Program → Program) : (updProg c p g s).tally = s.tally := rfl
@[simp] theorem updProg_free (c p : Nat) (g : Program → Program) : (updProg c p g s).free = s.free := rfl
@[simp] theorem updProg_out (c p : Nat) (g : Program → Program) : (updProg c p g s).out = s.out := rfl
@[simp] theorem updProg_pending (c p : Nat) (g : Program → Program) : (updProg c p g s).pending = s.pending := rfl

@[simp] theorem updStream_boot (n : Nat) (g : Stream → Stream) : (updStream n g s).boot = s.boot := rfl
@[simp] theorem updStream_fuse (n : Nat) (g : Stream → Stream) : (updStream n g s).fuse = s.fuse := rfl
@[simp] theorem updStream_regs (n : Nat) (g : Stream → Stream) : (updStream n g s).regs = s.regs := rfl
@[simp] theorem updStream_fns (n : Nat) (g : Stream → Stream) : (updStream n g s).fns = s.fns := rfl
@[simp] theorem updStream_host (n : Nat) (g : Stream → Stream) : (updStream n g s).host = s.host := rfl
@[simp] theorem updStream_cmds (n : Nat) (g : Stream → Stream) : (updStream n g s).cmds = s.cmds := rfl
@[simp] theorem updStream_nextOrder (n : Nat) (g : Stream → Stream) : (updStream n g s).nextOrder = s.nextOrder := rfl
@[simp] theorem updStream_contexts (n : Nat) (g : Stream → Stream) : (updStream n g s).contexts = s.contexts := rfl
@[simp] theorem updStream_streams (n : Nat) (g : Stream → Stream) : (updStream n g s).streams = tabUpd s.streams n g := rfl
@[simp] theorem updStream_slotUses (n : Nat) (g : Stream → Stream) : (updStream n g s).slotUses = s.slotUses := rfl
@[simp] theorem updStream_due (n : Nat) (g : Stream → Stream) : (updStream n g s).due = s.due := rfl
@[simp] theorem updStream_eng (n : Nat) (g : Stream → Stream) : (updStream n g s).eng = s.eng := rfl
@[simp] theorem updStream_mem (n : Nat) (g : Stream → Stream) : (updStream n g s).mem = s.mem := rfl
@[simp] theorem updStream_links (n : Nat) (g : Stream → Stream) : (updStream n g s).links = s.links := rfl
@[simp] theorem updStream_fab (n : Nat) (g : Stream → Stream) : (updStream n g s).fab = s.fab := rfl
@[simp] theorem updStream_herd (n : Nat) (g : Stream → Stream) : (updStream n g s).herd = s.herd := rfl
@[simp] theorem updStream_errs (n : Nat) (g : Stream → Stream) : (updStream n g s).errs = s.errs := rfl
@[simp] theorem updStream_pwr (n : Nat) (g : Stream → Stream) : (updStream n g s).pwr = s.pwr := rfl
@[simp] theorem updStream_mgt (n : Nat) (g : Stream → Stream) : (updStream n g s).mgt = s.mgt := rfl
@[simp] theorem updStream_counters (n : Nat) (g : Stream → Stream) : (updStream n g s).counters = s.counters := rfl
@[simp] theorem updStream_tally (n : Nat) (g : Stream → Stream) : (updStream n g s).tally = s.tally := rfl
@[simp] theorem updStream_free (n : Nat) (g : Stream → Stream) : (updStream n g s).free = s.free := rfl
@[simp] theorem updStream_out (n : Nat) (g : Stream → Stream) : (updStream n g s).out = s.out := rfl
@[simp] theorem updStream_pending (n : Nat) (g : Stream → Stream) : (updStream n g s).pending = s.pending := rfl

@[simp] theorem updLink_boot (l : Nat) (g : Link → Link) : (updLink l g s).boot = s.boot := rfl
@[simp] theorem updLink_fuse (l : Nat) (g : Link → Link) : (updLink l g s).fuse = s.fuse := rfl
@[simp] theorem updLink_regs (l : Nat) (g : Link → Link) : (updLink l g s).regs = s.regs := rfl
@[simp] theorem updLink_fns (l : Nat) (g : Link → Link) : (updLink l g s).fns = s.fns := rfl
@[simp] theorem updLink_host (l : Nat) (g : Link → Link) : (updLink l g s).host = s.host := rfl
@[simp] theorem updLink_cmds (l : Nat) (g : Link → Link) : (updLink l g s).cmds = s.cmds := rfl
@[simp] theorem updLink_nextOrder (l : Nat) (g : Link → Link) : (updLink l g s).nextOrder = s.nextOrder := rfl
@[simp] theorem updLink_contexts (l : Nat) (g : Link → Link) : (updLink l g s).contexts = s.contexts := rfl
@[simp] theorem updLink_streams (l : Nat) (g : Link → Link) : (updLink l g s).streams = s.streams := rfl
@[simp] theorem updLink_slotUses (l : Nat) (g : Link → Link) : (updLink l g s).slotUses = s.slotUses := rfl
@[simp] theorem updLink_due (l : Nat) (g : Link → Link) : (updLink l g s).due = s.due := rfl
@[simp] theorem updLink_eng (l : Nat) (g : Link → Link) : (updLink l g s).eng = s.eng := rfl
@[simp] theorem updLink_mem (l : Nat) (g : Link → Link) : (updLink l g s).mem = s.mem := rfl
@[simp] theorem updLink_links (l : Nat) (g : Link → Link) : (updLink l g s).links = s.links.modify l g := rfl
@[simp] theorem updLink_fab (l : Nat) (g : Link → Link) : (updLink l g s).fab = s.fab := rfl
@[simp] theorem updLink_herd (l : Nat) (g : Link → Link) : (updLink l g s).herd = s.herd := rfl
@[simp] theorem updLink_errs (l : Nat) (g : Link → Link) : (updLink l g s).errs = s.errs := rfl
@[simp] theorem updLink_pwr (l : Nat) (g : Link → Link) : (updLink l g s).pwr = s.pwr := rfl
@[simp] theorem updLink_mgt (l : Nat) (g : Link → Link) : (updLink l g s).mgt = s.mgt := rfl
@[simp] theorem updLink_counters (l : Nat) (g : Link → Link) : (updLink l g s).counters = s.counters := rfl
@[simp] theorem updLink_tally (l : Nat) (g : Link → Link) : (updLink l g s).tally = s.tally := rfl
@[simp] theorem updLink_free (l : Nat) (g : Link → Link) : (updLink l g s).free = s.free := rfl
@[simp] theorem updLink_out (l : Nat) (g : Link → Link) : (updLink l g s).out = s.out := rfl
@[simp] theorem updLink_pending (l : Nat) (g : Link → Link) : (updLink l g s).pending = s.pending := rfl

@[simp] theorem updStack_boot (n : Nat) (g : StackState → StackState) : (updStack n g s).boot = s.boot := rfl
@[simp] theorem updStack_fuse (n : Nat) (g : StackState → StackState) : (updStack n g s).fuse = s.fuse := rfl
@[simp] theorem updStack_regs (n : Nat) (g : StackState → StackState) : (updStack n g s).regs = s.regs := rfl
@[simp] theorem updStack_fns (n : Nat) (g : StackState → StackState) : (updStack n g s).fns = s.fns := rfl
@[simp] theorem updStack_host (n : Nat) (g : StackState → StackState) : (updStack n g s).host = s.host := rfl
@[simp] theorem updStack_cmds (n : Nat) (g : StackState → StackState) : (updStack n g s).cmds = s.cmds := rfl
@[simp] theorem updStack_nextOrder (n : Nat) (g : StackState → StackState) : (updStack n g s).nextOrder = s.nextOrder := rfl
@[simp] theorem updStack_contexts (n : Nat) (g : StackState → StackState) : (updStack n g s).contexts = s.contexts := rfl
@[simp] theorem updStack_streams (n : Nat) (g : StackState → StackState) : (updStack n g s).streams = s.streams := rfl
@[simp] theorem updStack_slotUses (n : Nat) (g : StackState → StackState) : (updStack n g s).slotUses = s.slotUses := rfl
@[simp] theorem updStack_due (n : Nat) (g : StackState → StackState) : (updStack n g s).due = s.due := rfl
@[simp] theorem updStack_eng (n : Nat) (g : StackState → StackState) : (updStack n g s).eng = s.eng := rfl
@[simp] theorem updStack_links (n : Nat) (g : StackState → StackState) : (updStack n g s).links = s.links := rfl
@[simp] theorem updStack_fab (n : Nat) (g : StackState → StackState) : (updStack n g s).fab = s.fab := rfl
@[simp] theorem updStack_herd (n : Nat) (g : StackState → StackState) : (updStack n g s).herd = s.herd := rfl
@[simp] theorem updStack_errs (n : Nat) (g : StackState → StackState) : (updStack n g s).errs = s.errs := rfl
@[simp] theorem updStack_pwr (n : Nat) (g : StackState → StackState) : (updStack n g s).pwr = s.pwr := rfl
@[simp] theorem updStack_mgt (n : Nat) (g : StackState → StackState) : (updStack n g s).mgt = s.mgt := rfl
@[simp] theorem updStack_counters (n : Nat) (g : StackState → StackState) : (updStack n g s).counters = s.counters := rfl
@[simp] theorem updStack_tally (n : Nat) (g : StackState → StackState) : (updStack n g s).tally = s.tally := rfl
@[simp] theorem updStack_free (n : Nat) (g : StackState → StackState) : (updStack n g s).free = s.free := rfl
@[simp] theorem updStack_out (n : Nat) (g : StackState → StackState) : (updStack n g s).out = s.out := rfl
@[simp] theorem updStack_pending (n : Nat) (g : StackState → StackState) : (updStack n g s).pending = s.pending := rfl

@[simp] theorem setQueue_boot (e : Engine) (q : Nat) (x : Queue) : (setQueue e q x s).boot = s.boot := rfl
@[simp] theorem setQueue_fuse (e : Engine) (q : Nat) (x : Queue) : (setQueue e q x s).fuse = s.fuse := rfl
@[simp] theorem setQueue_regs (e : Engine) (q : Nat) (x : Queue) : (setQueue e q x s).regs = s.regs := rfl
@[simp] theorem setQueue_fns (e : Engine) (q : Nat) (x : Queue) : (setQueue e q x s).fns = s.fns := rfl
@[simp] theorem setQueue_host (e : Engine) (q : Nat) (x : Queue) : (setQueue e q x s).host = s.host := rfl
@[simp] theorem setQueue_cmds (e : Engine) (q : Nat) (x : Queue) : (setQueue e q x s).cmds = s.cmds := rfl
@[simp] theorem setQueue_nextOrder (e : Engine) (q : Nat) (x : Queue) : (setQueue e q x s).nextOrder = s.nextOrder := rfl
@[simp] theorem setQueue_contexts (e : Engine) (q : Nat) (x : Queue) : (setQueue e q x s).contexts = s.contexts := rfl
@[simp] theorem setQueue_streams (e : Engine) (q : Nat) (x : Queue) : (setQueue e q x s).streams = s.streams := rfl
@[simp] theorem setQueue_slotUses (e : Engine) (q : Nat) (x : Queue) : (setQueue e q x s).slotUses = s.slotUses := rfl
@[simp] theorem setQueue_due (e : Engine) (q : Nat) (x : Queue) : (setQueue e q x s).due = s.due := rfl
@[simp] theorem setQueue_mem (e : Engine) (q : Nat) (x : Queue) : (setQueue e q x s).mem = s.mem := rfl
@[simp] theorem setQueue_links (e : Engine) (q : Nat) (x : Queue) : (setQueue e q x s).links = s.links := rfl
@[simp] theorem setQueue_fab (e : Engine) (q : Nat) (x : Queue) : (setQueue e q x s).fab = s.fab := rfl
@[simp] theorem setQueue_herd (e : Engine) (q : Nat) (x : Queue) : (setQueue e q x s).herd = s.herd := rfl
@[simp] theorem setQueue_errs (e : Engine) (q : Nat) (x : Queue) : (setQueue e q x s).errs = s.errs := rfl
@[simp] theorem setQueue_pwr (e : Engine) (q : Nat) (x : Queue) : (setQueue e q x s).pwr = s.pwr := rfl
@[simp] theorem setQueue_mgt (e : Engine) (q : Nat) (x : Queue) : (setQueue e q x s).mgt = s.mgt := rfl
@[simp] theorem setQueue_counters (e : Engine) (q : Nat) (x : Queue) : (setQueue e q x s).counters = s.counters := rfl
@[simp] theorem setQueue_tally (e : Engine) (q : Nat) (x : Queue) : (setQueue e q x s).tally = s.tally := rfl
@[simp] theorem setQueue_free (e : Engine) (q : Nat) (x : Queue) : (setQueue e q x s).free = s.free := rfl
@[simp] theorem setQueue_out (e : Engine) (q : Nat) (x : Queue) : (setQueue e q x s).out = s.out := rfl
@[simp] theorem setQueue_pending (e : Engine) (q : Nat) (x : Queue) : (setQueue e q x s).pending = s.pending := rfl

@[simp] theorem updQueue_boot (e : Engine) (q : Nat) (g : Queue → Queue) : (updQueue e q g s).boot = s.boot := rfl
@[simp] theorem updQueue_fuse (e : Engine) (q : Nat) (g : Queue → Queue) : (updQueue e q g s).fuse = s.fuse := rfl
@[simp] theorem updQueue_regs (e : Engine) (q : Nat) (g : Queue → Queue) : (updQueue e q g s).regs = s.regs := rfl
@[simp] theorem updQueue_fns (e : Engine) (q : Nat) (g : Queue → Queue) : (updQueue e q g s).fns = s.fns := rfl
@[simp] theorem updQueue_host (e : Engine) (q : Nat) (g : Queue → Queue) : (updQueue e q g s).host = s.host := rfl
@[simp] theorem updQueue_cmds (e : Engine) (q : Nat) (g : Queue → Queue) : (updQueue e q g s).cmds = s.cmds := rfl
@[simp] theorem updQueue_nextOrder (e : Engine) (q : Nat) (g : Queue → Queue) : (updQueue e q g s).nextOrder = s.nextOrder := rfl
@[simp] theorem updQueue_contexts (e : Engine) (q : Nat) (g : Queue → Queue) : (updQueue e q g s).contexts = s.contexts := rfl
@[simp] theorem updQueue_streams (e : Engine) (q : Nat) (g : Queue → Queue) : (updQueue e q g s).streams = s.streams := rfl
@[simp] theorem updQueue_slotUses (e : Engine) (q : Nat) (g : Queue → Queue) : (updQueue e q g s).slotUses = s.slotUses := rfl
@[simp] theorem updQueue_due (e : Engine) (q : Nat) (g : Queue → Queue) : (updQueue e q g s).due = s.due := rfl
@[simp] theorem updQueue_mem (e : Engine) (q : Nat) (g : Queue → Queue) : (updQueue e q g s).mem = s.mem := rfl
@[simp] theorem updQueue_links (e : Engine) (q : Nat) (g : Queue → Queue) : (updQueue e q g s).links = s.links := rfl
@[simp] theorem updQueue_fab (e : Engine) (q : Nat) (g : Queue → Queue) : (updQueue e q g s).fab = s.fab := rfl
@[simp] theorem updQueue_herd (e : Engine) (q : Nat) (g : Queue → Queue) : (updQueue e q g s).herd = s.herd := rfl
@[simp] theorem updQueue_errs (e : Engine) (q : Nat) (g : Queue → Queue) : (updQueue e q g s).errs = s.errs := rfl
@[simp] theorem updQueue_pwr (e : Engine) (q : Nat) (g : Queue → Queue) : (updQueue e q g s).pwr = s.pwr := rfl
@[simp] theorem updQueue_mgt (e : Engine) (q : Nat) (g : Queue → Queue) : (updQueue e q g s).mgt = s.mgt := rfl
@[simp] theorem updQueue_counters (e : Engine) (q : Nat) (g : Queue → Queue) : (updQueue e q g s).counters = s.counters := rfl
@[simp] theorem updQueue_tally (e : Engine) (q : Nat) (g : Queue → Queue) : (updQueue e q g s).tally = s.tally := rfl
@[simp] theorem updQueue_free (e : Engine) (q : Nat) (g : Queue → Queue) : (updQueue e q g s).free = s.free := rfl
@[simp] theorem updQueue_out (e : Engine) (q : Nat) (g : Queue → Queue) : (updQueue e q g s).out = s.out := rfl
@[simp] theorem updQueue_pending (e : Engine) (q : Nat) (g : Queue → Queue) : (updQueue e q g s).pending = s.pending := rfl

@[simp] theorem breakSpan_boot : (breakSpan s).boot = s.boot := rfl
@[simp] theorem breakSpan_fuse : (breakSpan s).fuse = s.fuse := rfl
@[simp] theorem breakSpan_regs : (breakSpan s).regs = s.regs := rfl
@[simp] theorem breakSpan_fns : (breakSpan s).fns = s.fns := rfl
@[simp] theorem breakSpan_host : (breakSpan s).host = s.host := rfl
@[simp] theorem breakSpan_cmds : (breakSpan s).cmds = s.cmds := rfl
@[simp] theorem breakSpan_nextOrder : (breakSpan s).nextOrder = s.nextOrder := rfl
@[simp] theorem breakSpan_contexts : (breakSpan s).contexts = s.contexts := rfl
@[simp] theorem breakSpan_streams : (breakSpan s).streams = s.streams := rfl
@[simp] theorem breakSpan_slotUses : (breakSpan s).slotUses = s.slotUses := rfl
@[simp] theorem breakSpan_due : (breakSpan s).due = s.due := rfl
@[simp] theorem breakSpan_eng : (breakSpan s).eng = s.eng := rfl
@[simp] theorem breakSpan_mem : (breakSpan s).mem = s.mem := rfl
@[simp] theorem breakSpan_links : (breakSpan s).links = s.links := rfl
@[simp] theorem breakSpan_fab : (breakSpan s).fab = s.fab := rfl
@[simp] theorem breakSpan_herd : (breakSpan s).herd = s.herd := rfl
@[simp] theorem breakSpan_pwr : (breakSpan s).pwr = s.pwr := rfl
@[simp] theorem breakSpan_mgt : (breakSpan s).mgt = s.mgt := rfl
@[simp] theorem breakSpan_counters : (breakSpan s).counters = s.counters := rfl
@[simp] theorem breakSpan_tally : (breakSpan s).tally = s.tally := rfl
@[simp] theorem breakSpan_free : (breakSpan s).free = s.free := rfl
@[simp] theorem breakSpan_out : (breakSpan s).out = s.out := rfl
@[simp] theorem breakSpan_pending : (breakSpan s).pending = s.pending := rfl

@[simp] theorem hostWrite_boot (a : Nat) (bs : List Byte) : (hostWrite a bs s).boot = s.boot := rfl
@[simp] theorem hostWrite_fuse (a : Nat) (bs : List Byte) : (hostWrite a bs s).fuse = s.fuse := rfl
@[simp] theorem hostWrite_regs (a : Nat) (bs : List Byte) : (hostWrite a bs s).regs = s.regs := rfl
@[simp] theorem hostWrite_fns (a : Nat) (bs : List Byte) : (hostWrite a bs s).fns = s.fns := rfl
@[simp] theorem hostWrite_cmds (a : Nat) (bs : List Byte) : (hostWrite a bs s).cmds = s.cmds := rfl
@[simp] theorem hostWrite_nextOrder (a : Nat) (bs : List Byte) : (hostWrite a bs s).nextOrder = s.nextOrder := rfl
@[simp] theorem hostWrite_contexts (a : Nat) (bs : List Byte) : (hostWrite a bs s).contexts = s.contexts := rfl
@[simp] theorem hostWrite_streams (a : Nat) (bs : List Byte) : (hostWrite a bs s).streams = s.streams := rfl
@[simp] theorem hostWrite_slotUses (a : Nat) (bs : List Byte) : (hostWrite a bs s).slotUses = s.slotUses := rfl
@[simp] theorem hostWrite_due (a : Nat) (bs : List Byte) : (hostWrite a bs s).due = s.due := rfl
@[simp] theorem hostWrite_eng (a : Nat) (bs : List Byte) : (hostWrite a bs s).eng = s.eng := rfl
@[simp] theorem hostWrite_mem (a : Nat) (bs : List Byte) : (hostWrite a bs s).mem = s.mem := rfl
@[simp] theorem hostWrite_links (a : Nat) (bs : List Byte) : (hostWrite a bs s).links = s.links := rfl
@[simp] theorem hostWrite_fab (a : Nat) (bs : List Byte) : (hostWrite a bs s).fab = s.fab := rfl
@[simp] theorem hostWrite_herd (a : Nat) (bs : List Byte) : (hostWrite a bs s).herd = s.herd := rfl
@[simp] theorem hostWrite_errs (a : Nat) (bs : List Byte) : (hostWrite a bs s).errs = s.errs := rfl
@[simp] theorem hostWrite_pwr (a : Nat) (bs : List Byte) : (hostWrite a bs s).pwr = s.pwr := rfl
@[simp] theorem hostWrite_mgt (a : Nat) (bs : List Byte) : (hostWrite a bs s).mgt = s.mgt := rfl
@[simp] theorem hostWrite_counters (a : Nat) (bs : List Byte) : (hostWrite a bs s).counters = s.counters := rfl
@[simp] theorem hostWrite_tally (a : Nat) (bs : List Byte) : (hostWrite a bs s).tally = s.tally := rfl
@[simp] theorem hostWrite_free (a : Nat) (bs : List Byte) : (hostWrite a bs s).free = s.free := rfl
@[simp] theorem hostWrite_out (a : Nat) (bs : List Byte) : (hostWrite a bs s).out = s.out := rfl
@[simp] theorem hostWrite_pending (a : Nat) (bs : List Byte) : (hostWrite a bs s).pending = s.pending := rfl

@[simp] theorem hostPut_boot (a : Nat) (bs : List Byte) : (hostPut a bs s).boot = s.boot := rfl
@[simp] theorem hostPut_fuse (a : Nat) (bs : List Byte) : (hostPut a bs s).fuse = s.fuse := rfl
@[simp] theorem hostPut_regs (a : Nat) (bs : List Byte) : (hostPut a bs s).regs = s.regs := rfl
@[simp] theorem hostPut_fns (a : Nat) (bs : List Byte) : (hostPut a bs s).fns = s.fns := rfl
@[simp] theorem hostPut_cmds (a : Nat) (bs : List Byte) : (hostPut a bs s).cmds = s.cmds := rfl
@[simp] theorem hostPut_nextOrder (a : Nat) (bs : List Byte) : (hostPut a bs s).nextOrder = s.nextOrder := rfl
@[simp] theorem hostPut_contexts (a : Nat) (bs : List Byte) : (hostPut a bs s).contexts = s.contexts := rfl
@[simp] theorem hostPut_streams (a : Nat) (bs : List Byte) : (hostPut a bs s).streams = s.streams := rfl
@[simp] theorem hostPut_slotUses (a : Nat) (bs : List Byte) : (hostPut a bs s).slotUses = s.slotUses := rfl
@[simp] theorem hostPut_due (a : Nat) (bs : List Byte) : (hostPut a bs s).due = s.due := rfl
@[simp] theorem hostPut_eng (a : Nat) (bs : List Byte) : (hostPut a bs s).eng = s.eng := rfl
@[simp] theorem hostPut_mem (a : Nat) (bs : List Byte) : (hostPut a bs s).mem = s.mem := rfl
@[simp] theorem hostPut_links (a : Nat) (bs : List Byte) : (hostPut a bs s).links = s.links := rfl
@[simp] theorem hostPut_fab (a : Nat) (bs : List Byte) : (hostPut a bs s).fab = s.fab := rfl
@[simp] theorem hostPut_herd (a : Nat) (bs : List Byte) : (hostPut a bs s).herd = s.herd := rfl
@[simp] theorem hostPut_errs (a : Nat) (bs : List Byte) : (hostPut a bs s).errs = s.errs := rfl
@[simp] theorem hostPut_pwr (a : Nat) (bs : List Byte) : (hostPut a bs s).pwr = s.pwr := rfl
@[simp] theorem hostPut_mgt (a : Nat) (bs : List Byte) : (hostPut a bs s).mgt = s.mgt := rfl
@[simp] theorem hostPut_counters (a : Nat) (bs : List Byte) : (hostPut a bs s).counters = s.counters := rfl
@[simp] theorem hostPut_tally (a : Nat) (bs : List Byte) : (hostPut a bs s).tally = s.tally := rfl
@[simp] theorem hostPut_free (a : Nat) (bs : List Byte) : (hostPut a bs s).free = s.free := rfl
@[simp] theorem hostPut_out (a : Nat) (bs : List Byte) : (hostPut a bs s).out = s.out := rfl
@[simp] theorem hostPut_pending (a : Nat) (bs : List Byte) : (hostPut a bs s).pending = s.pending := rfl

@[simp] theorem holdReq_boot (r : HostReq) : (holdReq r s).boot = s.boot := rfl
@[simp] theorem holdReq_fuse (r : HostReq) : (holdReq r s).fuse = s.fuse := rfl
@[simp] theorem holdReq_regs (r : HostReq) : (holdReq r s).regs = s.regs := rfl
@[simp] theorem holdReq_fns (r : HostReq) : (holdReq r s).fns = s.fns := rfl
@[simp] theorem holdReq_cmds (r : HostReq) : (holdReq r s).cmds = s.cmds := rfl
@[simp] theorem holdReq_nextOrder (r : HostReq) : (holdReq r s).nextOrder = s.nextOrder := rfl
@[simp] theorem holdReq_contexts (r : HostReq) : (holdReq r s).contexts = s.contexts := rfl
@[simp] theorem holdReq_streams (r : HostReq) : (holdReq r s).streams = s.streams := rfl
@[simp] theorem holdReq_slotUses (r : HostReq) : (holdReq r s).slotUses = s.slotUses := rfl
@[simp] theorem holdReq_due (r : HostReq) : (holdReq r s).due = s.due := rfl
@[simp] theorem holdReq_eng (r : HostReq) : (holdReq r s).eng = s.eng := rfl
@[simp] theorem holdReq_mem (r : HostReq) : (holdReq r s).mem = s.mem := rfl
@[simp] theorem holdReq_links (r : HostReq) : (holdReq r s).links = s.links := rfl
@[simp] theorem holdReq_fab (r : HostReq) : (holdReq r s).fab = s.fab := rfl
@[simp] theorem holdReq_herd (r : HostReq) : (holdReq r s).herd = s.herd := rfl
@[simp] theorem holdReq_errs (r : HostReq) : (holdReq r s).errs = s.errs := rfl
@[simp] theorem holdReq_pwr (r : HostReq) : (holdReq r s).pwr = s.pwr := rfl
@[simp] theorem holdReq_mgt (r : HostReq) : (holdReq r s).mgt = s.mgt := rfl
@[simp] theorem holdReq_counters (r : HostReq) : (holdReq r s).counters = s.counters := rfl
@[simp] theorem holdReq_tally (r : HostReq) : (holdReq r s).tally = s.tally := rfl
@[simp] theorem holdReq_free (r : HostReq) : (holdReq r s).free = s.free := rfl
@[simp] theorem holdReq_out (r : HostReq) : (holdReq r s).out = s.out := rfl
@[simp] theorem holdReq_pending (r : HostReq) : (holdReq r s).pending = s.pending := rfl

@[simp] theorem beginInterval_boot : (beginInterval s).boot = s.boot := rfl
@[simp] theorem beginInterval_fuse : (beginInterval s).fuse = s.fuse := rfl
@[simp] theorem beginInterval_fns : (beginInterval s).fns = s.fns := rfl
@[simp] theorem beginInterval_host : (beginInterval s).host = s.host := rfl
@[simp] theorem beginInterval_cmds : (beginInterval s).cmds = s.cmds := rfl
@[simp] theorem beginInterval_nextOrder : (beginInterval s).nextOrder = s.nextOrder := rfl
@[simp] theorem beginInterval_contexts : (beginInterval s).contexts = s.contexts := rfl
@[simp] theorem beginInterval_streams : (beginInterval s).streams = s.streams := rfl
@[simp] theorem beginInterval_slotUses : (beginInterval s).slotUses = s.slotUses := rfl
@[simp] theorem beginInterval_due : (beginInterval s).due = s.due := rfl
@[simp] theorem beginInterval_eng : (beginInterval s).eng = s.eng := rfl
@[simp] theorem beginInterval_mem : (beginInterval s).mem = s.mem := rfl
@[simp] theorem beginInterval_links : (beginInterval s).links = s.links := rfl
@[simp] theorem beginInterval_fab : (beginInterval s).fab = s.fab := rfl
@[simp] theorem beginInterval_herd : (beginInterval s).herd = s.herd := rfl
@[simp] theorem beginInterval_errs : (beginInterval s).errs = s.errs := rfl
@[simp] theorem beginInterval_pwr : (beginInterval s).pwr = s.pwr := rfl
@[simp] theorem beginInterval_mgt : (beginInterval s).mgt = s.mgt := rfl
@[simp] theorem beginInterval_counters : (beginInterval s).counters = s.counters := rfl
@[simp] theorem beginInterval_tally : (beginInterval s).tally = s.tally := rfl
@[simp] theorem beginInterval_free : (beginInterval s).free = s.free := rfl
@[simp] theorem beginInterval_out : (beginInterval s).out = s.out := rfl
@[simp] theorem beginInterval_pending : (beginInterval s).pending = s.pending := rfl

@[simp] theorem updCmd_boot (n : Nat) (g : FleosCmd → FleosCmd) : (updCmd n g s).boot = s.boot := rfl
@[simp] theorem updCmd_fuse (n : Nat) (g : FleosCmd → FleosCmd) : (updCmd n g s).fuse = s.fuse := rfl
@[simp] theorem updCmd_regs (n : Nat) (g : FleosCmd → FleosCmd) : (updCmd n g s).regs = s.regs := rfl
@[simp] theorem updCmd_fns (n : Nat) (g : FleosCmd → FleosCmd) : (updCmd n g s).fns = s.fns := rfl
@[simp] theorem updCmd_host (n : Nat) (g : FleosCmd → FleosCmd) : (updCmd n g s).host = s.host := rfl
@[simp] theorem updCmd_cmds (n : Nat) (g : FleosCmd → FleosCmd) : (updCmd n g s).cmds = s.cmds.map (fun c => if c.order = n then g c else c) := rfl
@[simp] theorem updCmd_nextOrder (n : Nat) (g : FleosCmd → FleosCmd) : (updCmd n g s).nextOrder = s.nextOrder := rfl
@[simp] theorem updCmd_contexts (n : Nat) (g : FleosCmd → FleosCmd) : (updCmd n g s).contexts = s.contexts := rfl
@[simp] theorem updCmd_streams (n : Nat) (g : FleosCmd → FleosCmd) : (updCmd n g s).streams = s.streams := rfl
@[simp] theorem updCmd_slotUses (n : Nat) (g : FleosCmd → FleosCmd) : (updCmd n g s).slotUses = s.slotUses := rfl
@[simp] theorem updCmd_due (n : Nat) (g : FleosCmd → FleosCmd) : (updCmd n g s).due = s.due := rfl
@[simp] theorem updCmd_eng (n : Nat) (g : FleosCmd → FleosCmd) : (updCmd n g s).eng = s.eng := rfl
@[simp] theorem updCmd_mem (n : Nat) (g : FleosCmd → FleosCmd) : (updCmd n g s).mem = s.mem := rfl
@[simp] theorem updCmd_links (n : Nat) (g : FleosCmd → FleosCmd) : (updCmd n g s).links = s.links := rfl
@[simp] theorem updCmd_fab (n : Nat) (g : FleosCmd → FleosCmd) : (updCmd n g s).fab = s.fab := rfl
@[simp] theorem updCmd_herd (n : Nat) (g : FleosCmd → FleosCmd) : (updCmd n g s).herd = s.herd := rfl
@[simp] theorem updCmd_errs (n : Nat) (g : FleosCmd → FleosCmd) : (updCmd n g s).errs = s.errs := rfl
@[simp] theorem updCmd_pwr (n : Nat) (g : FleosCmd → FleosCmd) : (updCmd n g s).pwr = s.pwr := rfl
@[simp] theorem updCmd_mgt (n : Nat) (g : FleosCmd → FleosCmd) : (updCmd n g s).mgt = s.mgt := rfl
@[simp] theorem updCmd_counters (n : Nat) (g : FleosCmd → FleosCmd) : (updCmd n g s).counters = s.counters := rfl
@[simp] theorem updCmd_tally (n : Nat) (g : FleosCmd → FleosCmd) : (updCmd n g s).tally = s.tally := rfl
@[simp] theorem updCmd_free (n : Nat) (g : FleosCmd → FleosCmd) : (updCmd n g s).free = s.free := rfl
@[simp] theorem updCmd_out (n : Nat) (g : FleosCmd → FleosCmd) : (updCmd n g s).out = s.out := rfl
@[simp] theorem updCmd_pending (n : Nat) (g : FleosCmd → FleosCmd) : (updCmd n g s).pending = s.pending := rfl

@[simp] theorem updHerd_boot (g : Herd → Herd) : (updHerd g s).boot = s.boot := rfl
@[simp] theorem updHerd_fuse (g : Herd → Herd) : (updHerd g s).fuse = s.fuse := rfl
@[simp] theorem updHerd_regs (g : Herd → Herd) : (updHerd g s).regs = s.regs := rfl
@[simp] theorem updHerd_fns (g : Herd → Herd) : (updHerd g s).fns = s.fns := rfl
@[simp] theorem updHerd_host (g : Herd → Herd) : (updHerd g s).host = s.host := rfl
@[simp] theorem updHerd_cmds (g : Herd → Herd) : (updHerd g s).cmds = s.cmds := rfl
@[simp] theorem updHerd_nextOrder (g : Herd → Herd) : (updHerd g s).nextOrder = s.nextOrder := rfl
@[simp] theorem updHerd_contexts (g : Herd → Herd) : (updHerd g s).contexts = s.contexts := rfl
@[simp] theorem updHerd_streams (g : Herd → Herd) : (updHerd g s).streams = s.streams := rfl
@[simp] theorem updHerd_slotUses (g : Herd → Herd) : (updHerd g s).slotUses = s.slotUses := rfl
@[simp] theorem updHerd_due (g : Herd → Herd) : (updHerd g s).due = s.due := rfl
@[simp] theorem updHerd_eng (g : Herd → Herd) : (updHerd g s).eng = s.eng := rfl
@[simp] theorem updHerd_mem (g : Herd → Herd) : (updHerd g s).mem = s.mem := rfl
@[simp] theorem updHerd_links (g : Herd → Herd) : (updHerd g s).links = s.links := rfl
@[simp] theorem updHerd_fab (g : Herd → Herd) : (updHerd g s).fab = s.fab := rfl
@[simp] theorem updHerd_herd (g : Herd → Herd) : (updHerd g s).herd = g s.herd := rfl
@[simp] theorem updHerd_errs (g : Herd → Herd) : (updHerd g s).errs = s.errs := rfl
@[simp] theorem updHerd_pwr (g : Herd → Herd) : (updHerd g s).pwr = s.pwr := rfl
@[simp] theorem updHerd_mgt (g : Herd → Herd) : (updHerd g s).mgt = s.mgt := rfl
@[simp] theorem updHerd_counters (g : Herd → Herd) : (updHerd g s).counters = s.counters := rfl
@[simp] theorem updHerd_tally (g : Herd → Herd) : (updHerd g s).tally = s.tally := rfl
@[simp] theorem updHerd_free (g : Herd → Herd) : (updHerd g s).free = s.free := rfl
@[simp] theorem updHerd_out (g : Herd → Herd) : (updHerd g s).out = s.out := rfl
@[simp] theorem updHerd_pending (g : Herd → Herd) : (updHerd g s).pending = s.pending := rfl

@[simp] theorem updRegs_boot (g : Regs → Regs) : (updRegs g s).boot = s.boot := rfl
@[simp] theorem updRegs_fuse (g : Regs → Regs) : (updRegs g s).fuse = s.fuse := rfl
@[simp] theorem updRegs_regs (g : Regs → Regs) : (updRegs g s).regs = g s.regs := rfl
@[simp] theorem updRegs_fns (g : Regs → Regs) : (updRegs g s).fns = s.fns := rfl
@[simp] theorem updRegs_host (g : Regs → Regs) : (updRegs g s).host = s.host := rfl
@[simp] theorem updRegs_cmds (g : Regs → Regs) : (updRegs g s).cmds = s.cmds := rfl
@[simp] theorem updRegs_nextOrder (g : Regs → Regs) : (updRegs g s).nextOrder = s.nextOrder := rfl
@[simp] theorem updRegs_contexts (g : Regs → Regs) : (updRegs g s).contexts = s.contexts := rfl
@[simp] theorem updRegs_streams (g : Regs → Regs) : (updRegs g s).streams = s.streams := rfl
@[simp] theorem updRegs_slotUses (g : Regs → Regs) : (updRegs g s).slotUses = s.slotUses := rfl
@[simp] theorem updRegs_due (g : Regs → Regs) : (updRegs g s).due = s.due := rfl
@[simp] theorem updRegs_eng (g : Regs → Regs) : (updRegs g s).eng = s.eng := rfl
@[simp] theorem updRegs_mem (g : Regs → Regs) : (updRegs g s).mem = s.mem := rfl
@[simp] theorem updRegs_links (g : Regs → Regs) : (updRegs g s).links = s.links := rfl
@[simp] theorem updRegs_fab (g : Regs → Regs) : (updRegs g s).fab = s.fab := rfl
@[simp] theorem updRegs_herd (g : Regs → Regs) : (updRegs g s).herd = s.herd := rfl
@[simp] theorem updRegs_errs (g : Regs → Regs) : (updRegs g s).errs = s.errs := rfl
@[simp] theorem updRegs_pwr (g : Regs → Regs) : (updRegs g s).pwr = s.pwr := rfl
@[simp] theorem updRegs_mgt (g : Regs → Regs) : (updRegs g s).mgt = s.mgt := rfl
@[simp] theorem updRegs_counters (g : Regs → Regs) : (updRegs g s).counters = s.counters := rfl
@[simp] theorem updRegs_tally (g : Regs → Regs) : (updRegs g s).tally = s.tally := rfl
@[simp] theorem updRegs_free (g : Regs → Regs) : (updRegs g s).free = s.free := rfl
@[simp] theorem updRegs_out (g : Regs → Regs) : (updRegs g s).out = s.out := rfl
@[simp] theorem updRegs_pending (g : Regs → Regs) : (updRegs g s).pending = s.pending := rfl

@[simp] theorem updPort_boot (p : Nat) (g : MgtPort → MgtPort) : (updPort p g s).boot = s.boot := rfl
@[simp] theorem updPort_fuse (p : Nat) (g : MgtPort → MgtPort) : (updPort p g s).fuse = s.fuse := rfl
@[simp] theorem updPort_regs (p : Nat) (g : MgtPort → MgtPort) : (updPort p g s).regs = s.regs := rfl
@[simp] theorem updPort_fns (p : Nat) (g : MgtPort → MgtPort) : (updPort p g s).fns = s.fns := rfl
@[simp] theorem updPort_host (p : Nat) (g : MgtPort → MgtPort) : (updPort p g s).host = s.host := rfl
@[simp] theorem updPort_cmds (p : Nat) (g : MgtPort → MgtPort) : (updPort p g s).cmds = s.cmds := rfl
@[simp] theorem updPort_nextOrder (p : Nat) (g : MgtPort → MgtPort) : (updPort p g s).nextOrder = s.nextOrder := rfl
@[simp] theorem updPort_contexts (p : Nat) (g : MgtPort → MgtPort) : (updPort p g s).contexts = s.contexts := rfl
@[simp] theorem updPort_streams (p : Nat) (g : MgtPort → MgtPort) : (updPort p g s).streams = s.streams := rfl
@[simp] theorem updPort_slotUses (p : Nat) (g : MgtPort → MgtPort) : (updPort p g s).slotUses = s.slotUses := rfl
@[simp] theorem updPort_due (p : Nat) (g : MgtPort → MgtPort) : (updPort p g s).due = s.due := rfl
@[simp] theorem updPort_eng (p : Nat) (g : MgtPort → MgtPort) : (updPort p g s).eng = s.eng := rfl
@[simp] theorem updPort_mem (p : Nat) (g : MgtPort → MgtPort) : (updPort p g s).mem = s.mem := rfl
@[simp] theorem updPort_links (p : Nat) (g : MgtPort → MgtPort) : (updPort p g s).links = s.links := rfl
@[simp] theorem updPort_fab (p : Nat) (g : MgtPort → MgtPort) : (updPort p g s).fab = s.fab := rfl
@[simp] theorem updPort_herd (p : Nat) (g : MgtPort → MgtPort) : (updPort p g s).herd = s.herd := rfl
@[simp] theorem updPort_errs (p : Nat) (g : MgtPort → MgtPort) : (updPort p g s).errs = s.errs := rfl
@[simp] theorem updPort_pwr (p : Nat) (g : MgtPort → MgtPort) : (updPort p g s).pwr = s.pwr := rfl
@[simp] theorem updPort_counters (p : Nat) (g : MgtPort → MgtPort) : (updPort p g s).counters = s.counters := rfl
@[simp] theorem updPort_tally (p : Nat) (g : MgtPort → MgtPort) : (updPort p g s).tally = s.tally := rfl
@[simp] theorem updPort_free (p : Nat) (g : MgtPort → MgtPort) : (updPort p g s).free = s.free := rfl
@[simp] theorem updPort_out (p : Nat) (g : MgtPort → MgtPort) : (updPort p g s).out = s.out := rfl
@[simp] theorem updPort_pending (p : Nat) (g : MgtPort → MgtPort) : (updPort p g s).pending = s.pending := rfl

@[simp] theorem takeNat_boot (n : Nat) : (takeNat n s).2.boot = s.boot := rfl
@[simp] theorem takeNat_fuse (n : Nat) : (takeNat n s).2.fuse = s.fuse := rfl
@[simp] theorem takeNat_regs (n : Nat) : (takeNat n s).2.regs = s.regs := rfl
@[simp] theorem takeNat_fns (n : Nat) : (takeNat n s).2.fns = s.fns := rfl
@[simp] theorem takeNat_host (n : Nat) : (takeNat n s).2.host = s.host := rfl
@[simp] theorem takeNat_cmds (n : Nat) : (takeNat n s).2.cmds = s.cmds := rfl
@[simp] theorem takeNat_nextOrder (n : Nat) : (takeNat n s).2.nextOrder = s.nextOrder := rfl
@[simp] theorem takeNat_contexts (n : Nat) : (takeNat n s).2.contexts = s.contexts := rfl
@[simp] theorem takeNat_streams (n : Nat) : (takeNat n s).2.streams = s.streams := rfl
@[simp] theorem takeNat_slotUses (n : Nat) : (takeNat n s).2.slotUses = s.slotUses := rfl
@[simp] theorem takeNat_due (n : Nat) : (takeNat n s).2.due = s.due := rfl
@[simp] theorem takeNat_eng (n : Nat) : (takeNat n s).2.eng = s.eng := rfl
@[simp] theorem takeNat_mem (n : Nat) : (takeNat n s).2.mem = s.mem := rfl
@[simp] theorem takeNat_links (n : Nat) : (takeNat n s).2.links = s.links := rfl
@[simp] theorem takeNat_fab (n : Nat) : (takeNat n s).2.fab = s.fab := rfl
@[simp] theorem takeNat_herd (n : Nat) : (takeNat n s).2.herd = s.herd := rfl
@[simp] theorem takeNat_errs (n : Nat) : (takeNat n s).2.errs = s.errs := rfl
@[simp] theorem takeNat_pwr (n : Nat) : (takeNat n s).2.pwr = s.pwr := rfl
@[simp] theorem takeNat_mgt (n : Nat) : (takeNat n s).2.mgt = s.mgt := rfl
@[simp] theorem takeNat_counters (n : Nat) : (takeNat n s).2.counters = s.counters := rfl
@[simp] theorem takeNat_tally (n : Nat) : (takeNat n s).2.tally = s.tally := rfl
@[simp] theorem takeNat_free (n : Nat) : (takeNat n s).2.free = s.free + 1 := rfl
@[simp] theorem takeNat_out (n : Nat) : (takeNat n s).2.out = s.out := rfl
@[simp] theorem takeNat_pending (n : Nat) : (takeNat n s).2.pending = s.pending := rfl

@[simp] theorem takeBool_boot : (takeBool s).2.boot = s.boot := rfl
@[simp] theorem takeBool_fuse : (takeBool s).2.fuse = s.fuse := rfl
@[simp] theorem takeBool_regs : (takeBool s).2.regs = s.regs := rfl
@[simp] theorem takeBool_fns : (takeBool s).2.fns = s.fns := rfl
@[simp] theorem takeBool_host : (takeBool s).2.host = s.host := rfl
@[simp] theorem takeBool_cmds : (takeBool s).2.cmds = s.cmds := rfl
@[simp] theorem takeBool_nextOrder : (takeBool s).2.nextOrder = s.nextOrder := rfl
@[simp] theorem takeBool_contexts : (takeBool s).2.contexts = s.contexts := rfl
@[simp] theorem takeBool_streams : (takeBool s).2.streams = s.streams := rfl
@[simp] theorem takeBool_slotUses : (takeBool s).2.slotUses = s.slotUses := rfl
@[simp] theorem takeBool_due : (takeBool s).2.due = s.due := rfl
@[simp] theorem takeBool_eng : (takeBool s).2.eng = s.eng := rfl
@[simp] theorem takeBool_mem : (takeBool s).2.mem = s.mem := rfl
@[simp] theorem takeBool_links : (takeBool s).2.links = s.links := rfl
@[simp] theorem takeBool_fab : (takeBool s).2.fab = s.fab := rfl
@[simp] theorem takeBool_herd : (takeBool s).2.herd = s.herd := rfl
@[simp] theorem takeBool_errs : (takeBool s).2.errs = s.errs := rfl
@[simp] theorem takeBool_pwr : (takeBool s).2.pwr = s.pwr := rfl
@[simp] theorem takeBool_mgt : (takeBool s).2.mgt = s.mgt := rfl
@[simp] theorem takeBool_counters : (takeBool s).2.counters = s.counters := rfl
@[simp] theorem takeBool_tally : (takeBool s).2.tally = s.tally := rfl
@[simp] theorem takeBool_free : (takeBool s).2.free = s.free + 1 := rfl
@[simp] theorem takeBool_out : (takeBool s).2.out = s.out := rfl
@[simp] theorem takeBool_pending : (takeBool s).2.pending = s.pending := rfl

end Sys2Proof.Machine
end

