-- ==== Sys2Proof/Laws/Tables.lean ====
section
/-! SUPPORT. Laws of tables, bytes and byte memories: read after write, other places unchanged, the canonical form kept. -/
namespace Sys2Proof.Machine

variable {α : Type}

/-! ### Tables -/

/-- Every key of a table is greater than a bound. -/
def Above (k : Nat) (m : Sparse α) : Prop := ∀ e ∈ m, k < e.1

theorem ascending_cons {k : Nat} {v : α} {m : Sparse α} : ascending ((k, v) :: m) = true ↔ Above k m ∧ ascending m = true := by
  induction m generalizing k v with
  | nil => simp [ascending, Above]
  | cons e m ih =>
    obtain ⟨j, w⟩ := e
    simp only [ascending, Bool.and_eq_true, decide_eq_true_eq]
    constructor
    · rintro ⟨h, hr⟩
      refine ⟨?_, hr⟩
      intro x hx
      rcases List.mem_cons.mp hx with rfl | hx
      · exact h
      · exact lt_trans h ((ih.mp hr).1 x hx)
    · rintro ⟨ha, hr⟩
      exact ⟨ha (j, w) (by simp), hr⟩

theorem tabGet_tabSet_same (m : Sparse α) (i : Nat) (v : α) : tabGet (tabSet m i v) i = some v := by
  induction m with
  | nil => simp [tabSet, tabGet]
  | cons e m ih =>
    obtain ⟨k, w⟩ := e
    by_cases h1 : i < k
    · simp [tabSet, h1, tabGet]
    · by_cases h2 : k = i
      · simp [tabSet, h2, tabGet]
      · simp [tabSet, h1, h2, tabGet, ih]

theorem tabGet_tabSet_other (m : Sparse α) (i j : Nat) (v : α) (h : j ≠ i) : tabGet (tabSet m i v) j = tabGet m j := by
  induction m with
  | nil => simp [tabSet, tabGet, Ne.symm h]
  | cons e m ih =>
    obtain ⟨k, w⟩ := e
    by_cases h1 : i < k
    · simp [tabSet, h1, tabGet, Ne.symm h]
    · by_cases h2 : k = i
      · subst h2
        simp [tabSet, tabGet, Ne.symm h]
      · simp [tabSet, h1, h2, tabGet, ih]

theorem tabGet_tabDel_same (m : Sparse α) (i : Nat) : tabGet (tabDel m i) i = none := by
  induction m with
  | nil => simp [tabDel, tabGet]
  | cons e m ih =>
    obtain ⟨k, w⟩ := e
    by_cases h : k = i
    · simpa [tabDel, h] using ih
    · simpa [tabDel, tabGet, h] using ih

theorem tabGet_tabDel_other (m : Sparse α) (i j : Nat) (h : j ≠ i) : tabGet (tabDel m i) j = tabGet m j := by
  induction m with
  | nil => simp [tabDel, tabGet]
  | cons e m ih =>
    obtain ⟨k, w⟩ := e
    by_cases hk : k = i
    · subst hk
      simpa [tabDel, tabGet, Ne.symm h] using ih
    · by_cases hj : k = j
      · simp [tabDel, tabGet, hj, h]
      · simpa [tabDel, tabGet, hk, hj] using ih

theorem tabGet_tabUpd_same (m : Sparse α) (i : Nat) (f : α → α) : tabGet (tabUpd m i f) i = (tabGet m i).map f := by
  unfold tabUpd
  cases h : tabGet m i <;> simp [h, tabGet_tabSet_same]

theorem tabGet_tabUpd_other (m : Sparse α) (i j : Nat) (f : α → α) (h : j ≠ i) : tabGet (tabUpd m i f) j = tabGet m j := by
  unfold tabUpd
  cases tabGet m i <;> simp [tabGet_tabSet_other _ _ _ _ h]

theorem tabNat_tabPut_same (m : Sparse Nat) (i n : Nat) : tabNat (tabPut m i n) i = n := by
  unfold tabNat tabPut
  split
  · next h => simp [h, tabGet_tabDel_same]
  · simp [tabGet_tabSet_same]

theorem tabNat_tabPut_other (m : Sparse Nat) (i j n : Nat) (h : j ≠ i) : tabNat (tabPut m i n) j = tabNat m j := by
  unfold tabNat tabPut
  split
  · simp [tabGet_tabDel_other _ _ _ h]
  · simp [tabGet_tabSet_other _ _ _ _ h]

theorem above_tabSet {m : Sparse α} {k i : Nat} {v : α} (hm : Above k m) (hi : k < i) : Above k (tabSet m i v) := by
  induction m with
  | nil => simpa [tabSet, Above] using hi
  | cons e m ih =>
    obtain ⟨j, w⟩ := e
    have hj : k < j := hm (j, w) (by simp)
    have hr : Above k m := fun x hx => hm x (by simp [hx])
    unfold tabSet
    split
    · intro x hx
      rcases List.mem_cons.mp hx with rfl | hx
      · exact hi
      · exact hm x hx
    · split
      · intro x hx
        rcases List.mem_cons.mp hx with rfl | hx
        · exact hi
        · exact hr x hx
      · intro x hx
        rcases List.mem_cons.mp hx with rfl | hx
        · exact hj
        · exact ih hr x hx

theorem ascending_tabSet {m : Sparse α} (i : Nat) (v : α) (h : ascending m = true) : ascending (tabSet m i v) = true := by
  induction m with
  | nil => simp [tabSet, ascending]
  | cons e m ih =>
    obtain ⟨k, w⟩ := e
    obtain ⟨ha, hr⟩ := ascending_cons.mp h
    unfold tabSet
    split
    · next hlt =>
      refine ascending_cons.mpr ⟨?_, h⟩
      intro x hx
      rcases List.mem_cons.mp hx with rfl | hx
      · exact hlt
      · exact lt_trans hlt (ha x hx)
    · split
      · next _ he => subst he; exact ascending_cons.mpr ⟨ha, hr⟩
      · next h1 h2 => exact ascending_cons.mpr ⟨above_tabSet ha (by omega), ih hr⟩

theorem ascending_filter {m : Sparse α} (p : Nat × α → Bool) (h : ascending m = true) : ascending (m.filter p) = true := by
  induction m with
  | nil => simp [ascending]
  | cons e m ih =>
    obtain ⟨k, w⟩ := e
    obtain ⟨ha, hr⟩ := ascending_cons.mp h
    rw [List.filter_cons]
    split
    · exact ascending_cons.mpr ⟨fun x hx => ha x (List.mem_of_mem_filter hx), ih hr⟩
    · exact ih hr

theorem ascending_tabDel {m : Sparse α} (i : Nat) (h : ascending m = true) : ascending (tabDel m i) = true :=
  ascending_filter _ h

/-! ### Byte memories (the canonical form) -/

theorem mem_tabSet {m : Sparse α} {i : Nat} {v : α} {x : Nat × α} (h : x ∈ tabSet m i v) : x = (i, v) ∨ x ∈ m := by
  induction m with
  | nil => simpa [tabSet] using h
  | cons e m ih =>
    obtain ⟨k, w⟩ := e
    unfold tabSet at h
    split at h
    · simpa using h
    · split at h
      · rcases List.mem_cons.mp h with h | h
        · exact Or.inl h
        · exact Or.inr (by simp [h])
      · rcases List.mem_cons.mp h with h | h
        · exact Or.inr (by simp [h])
        · rcases ih h with h | h
          · exact Or.inl h
          · exact Or.inr (by simp [h])

theorem wf_filter {m : List Host.Cell} (p : Host.Cell → Bool) (h : Memory.wf m) : Memory.wf (m.filter p) := by
  refine ⟨ascending_filter p h.1, ?_⟩
  have h2 := h.2
  simp only [List.all_eq_true] at h2 ⊢
  exact fun x hx => h2 x (List.mem_of_mem_filter hx)

/-- A byte written keeps the canonical form. -/
theorem wf_cellSet {m : List Host.Cell} (a : Nat) (b : Byte) (h : Memory.wf m) : Memory.wf (cellSet m a b) := by
  unfold cellSet
  split
  · exact wf_filter _ h
  · next hb =>
    refine ⟨ascending_tabSet a b h.1, ?_⟩
    have h2 := h.2
    simp only [List.all_eq_true, decide_eq_true_eq] at h2 ⊢
    intro x hx
    rcases mem_tabSet hx with rfl | hx
    · exact hb
    · exact h2 x hx

/-- Bytes written keep the canonical form. -/
theorem wf_cellsSet (bs : List Byte) {m : List Host.Cell} (a : Nat) (h : Memory.wf m) : Memory.wf (cellsSet m a bs) := by
  induction bs generalizing m a with
  | nil => exact h
  | cons b r ih => exact ih (a + 1) (wf_cellSet a b h)

/-- A byte reads as it was written. -/
theorem cellGet_cellSet_same (m : List Host.Cell) (a : Nat) (b : Byte) : cellGet (cellSet m a b) a = b := by
  unfold cellGet cellSet
  split
  · next h => simp [h, tabGet_tabDel_same]
  · simp [tabGet_tabSet_same]

/-- A byte written leaves every other place alone. -/
theorem cellGet_cellSet_other (m : List Host.Cell) (a x : Nat) (b : Byte) (h : x ≠ a) :
    cellGet (cellSet m a b) x = cellGet m x := by
  unfold cellGet cellSet
  split
  · simp [tabGet_tabDel_other _ _ _ h]
  · simp [tabGet_tabSet_other _ _ _ _ h]

/-- Bytes written leave every place outside them alone. -/
theorem cellGet_cellsSet_other (bs : List Byte) (m : List Host.Cell) (a x : Nat) (h : x < a ∨ a + bs.length ≤ x) :
    cellGet (cellsSet m a bs) x = cellGet m x := by
  induction bs generalizing m a with
  | nil => rfl
  | cons b r ih =>
    simp only [List.length_cons] at h
    rw [cellsSet, ih _ _ (by omega), cellGet_cellSet_other _ _ _ _ (by omega)]

/-- Bytes read as they were written. -/
theorem cellGet_cellsSet_same (bs : List Byte) (m : List Host.Cell) (a i : Nat) (h : i < bs.length) :
    cellGet (cellsSet m a bs) (a + i) = bs[i] := by
  induction bs generalizing m a i with
  | nil => simp at h
  | cons b r ih =>
    cases i with
    | zero => rw [cellsSet, cellGet_cellsSet_other _ _ _ _ (by omega)]; simp [cellGet_cellSet_same]
    | succ i =>
      have := ih (cellSet m a b) (a + 1) i (by simpa using h)
      rw [cellsSet]
      simpa [Nat.add_assoc, Nat.add_comm 1 i] using this

theorem cellsGet_cellsSet (bs : List Byte) (m : List Host.Cell) (a : Nat) : cellsGet (cellsSet m a bs) a bs.length = bs := by
  unfold cellsGet
  apply List.ext_getElem
  · simp
  · intro i h1 h2
    simp [cellGet_cellsSet_same bs m a i h2]

/-! ### Bytes -/

@[simp] theorem natLe_length (n v : Nat) : (natLe n v).length = n := by
  induction n generalizing v with
  | zero => rfl
  | succ n ih => simp [natLe, ih]

theorem leNat_natLe (n v : Nat) : leNat (natLe n v) = v % 256 ^ n := by
  induction n generalizing v with
  | zero => simp [natLe, leNat, Nat.mod_one]
  | succ n ih =>
    have h : (BitVec.ofNat 8 v).toNat = v % 256 := by simp
    simp only [natLe, leNat, ih, h]
    rw [Nat.pow_succ', Nat.mod_mul]

@[simp] theorem slice_length (bs : List Byte) (off len : Nat) : (slice bs off len).length = len := by
  simp [slice]

end Sys2Proof.Machine
end

