-- ==== Sys2Proof/Laws/Ops.lean ====
section
/-! SUPPORT. What the shared operations do, once for each: commands of Fleos, completion, host memory, counters. -/
namespace Sys2Proof.Machine

/-! ### What completions, records and events leave alone -/

variable (s : State)

@[simp] theorem finish_boot (n a b c : Nat) : (finish n a b c s).boot = s.boot := by
  unfold finish; dsimp only; repeat' split
  all_goals simp
@[simp] theorem finish_fuse (n a b c : Nat) : (finish n a b c s).fuse = s.fuse := by
  unfold finish; dsimp only; repeat' split
  all_goals simp
@[simp] theorem finish_regs (n a b c : Nat) : (finish n a b c s).regs = s.regs := by
  unfold finish; dsimp only; repeat' split
  all_goals simp
@[simp] theorem finish_fns (n a b c : Nat) : (finish n a b c s).fns = s.fns := by
  unfold finish; dsimp only; repeat' split
  all_goals simp
@[simp] theorem finish_host (n a b c : Nat) : (finish n a b c s).host = s.host := by
  unfold finish; dsimp only; repeat' split
  all_goals simp
@[simp] theorem finish_nextOrder (n a b c : Nat) : (finish n a b c s).nextOrder = s.nextOrder := by
  unfold finish; dsimp only; repeat' split
  all_goals simp
@[simp] theorem finish_contexts (n a b c : Nat) : (finish n a b c s).contexts = s.contexts := by
  unfold finish; dsimp only; repeat' split
  all_goals simp
@[simp] theorem finish_streams (n a b c : Nat) : (finish n a b c s).streams = s.streams := by
  unfold finish; dsimp only; repeat' split
  all_goals simp
@[simp] theorem finish_slotUses (n a b c : Nat) : (finish n a b c s).slotUses = s.slotUses := by
  unfold finish; dsimp only; repeat' split
  all_goals simp
@[simp] theorem finish_due (n a b c : Nat) : (finish n a b c s).due = s.due := by
  unfold finish; dsimp only; repeat' split
  all_goals simp
@[simp] theorem finish_eng (n a b c : Nat) : (finish n a b c s).eng = s.eng := by
  unfold finish; dsimp only; repeat' split
  all_goals simp
@[simp] theorem finish_mem (n a b c : Nat) : (finish n a b c s).mem = s.mem := by
  unfold finish; dsimp only; repeat' split
  all_goals simp
@[simp] theorem finish_links (n a b c : Nat) : (finish n a b c s).links = s.links := by
  unfold finish; dsimp only; repeat' split
  all_goals simp
@[simp] theorem finish_fab (n a b c : Nat) : (finish n a b c s).fab = s.fab := by
  unfold finish; dsimp only; repeat' split
  all_goals simp
@[simp] theorem finish_herd (n a b c : Nat) : (finish n a b c s).herd = s.herd := by
  unfold finish; dsimp only; repeat' split
  all_goals simp
@[simp] theorem finish_errs (n a b c : Nat) : (finish n a b c s).errs = s.errs := by
  unfold finish; dsimp only; repeat' split
  all_goals simp
@[simp] theorem finish_pwr (n a b c : Nat) : (finish n a b c s).pwr = s.pwr := by
  unfold finish; dsimp only; repeat' split
  all_goals simp
@[simp] theorem finish_counters (n a b c : Nat) : (finish n a b c s).counters = s.counters := by
  unfold finish; dsimp only; repeat' split
  all_goals simp
@[simp] theorem finish_tally (n a b c : Nat) : (finish n a b c s).tally = s.tally := by
  unfold finish; dsimp only; repeat' split
  all_goals simp
@[simp] theorem finish_free (n a b c : Nat) : (finish n a b c s).free = s.free := by
  unfold finish; dsimp only; repeat' split
  all_goals simp
@[simp] theorem finish_pending (n a b c : Nat) : (finish n a b c s).pending = s.pending := by
  unfold finish; dsimp only; repeat' split
  all_goals simp

@[simp] theorem finishOk_boot (n a : Nat) : (finishOk n a s).boot = s.boot := by
  simp [finishOk]
@[simp] theorem finishOk_fuse (n a : Nat) : (finishOk n a s).fuse = s.fuse := by
  simp [finishOk]
@[simp] theorem finishOk_regs (n a : Nat) : (finishOk n a s).regs = s.regs := by
  simp [finishOk]
@[simp] theorem finishOk_fns (n a : Nat) : (finishOk n a s).fns = s.fns := by
  simp [finishOk]
@[simp] theorem finishOk_host (n a : Nat) : (finishOk n a s).host = s.host := by
  simp [finishOk]
@[simp] theorem finishOk_nextOrder (n a : Nat) : (finishOk n a s).nextOrder = s.nextOrder := by
  simp [finishOk]
@[simp] theorem finishOk_contexts (n a : Nat) : (finishOk n a s).contexts = s.contexts := by
  simp [finishOk]
@[simp] theorem finishOk_streams (n a : Nat) : (finishOk n a s).streams = s.streams := by
  simp [finishOk]
@[simp] theorem finishOk_slotUses (n a : Nat) : (finishOk n a s).slotUses = s.slotUses := by
  simp [finishOk]
@[simp] theorem finishOk_due (n a : Nat) : (finishOk n a s).due = s.due := by
  simp [finishOk]
@[simp] theorem finishOk_eng (n a : Nat) : (finishOk n a s).eng = s.eng := by
  simp [finishOk]
@[simp] theorem finishOk_mem (n a : Nat) : (finishOk n a s).mem = s.mem := by
  simp [finishOk]
@[simp] theorem finishOk_links (n a : Nat) : (finishOk n a s).links = s.links := by
  simp [finishOk]
@[simp] theorem finishOk_fab (n a : Nat) : (finishOk n a s).fab = s.fab := by
  simp [finishOk]
@[simp] theorem finishOk_herd (n a : Nat) : (finishOk n a s).herd = s.herd := by
  simp [finishOk]
@[simp] theorem finishOk_errs (n a : Nat) : (finishOk n a s).errs = s.errs := by
  simp [finishOk]
@[simp] theorem finishOk_pwr (n a : Nat) : (finishOk n a s).pwr = s.pwr := by
  simp [finishOk]
@[simp] theorem finishOk_counters (n a : Nat) : (finishOk n a s).counters = s.counters := by
  simp [finishOk]
@[simp] theorem finishOk_tally (n a : Nat) : (finishOk n a s).tally = s.tally := by
  simp [finishOk]
@[simp] theorem finishOk_free (n a : Nat) : (finishOk n a s).free = s.free := by
  simp [finishOk]
@[simp] theorem finishOk_pending (n a : Nat) : (finishOk n a s).pending = s.pending := by
  simp [finishOk]

@[simp] theorem finishNoRes_boot (n a : Nat) : (finishNoRes n a s).boot = s.boot := by
  simp [finishNoRes]
@[simp] theorem finishNoRes_fuse (n a : Nat) : (finishNoRes n a s).fuse = s.fuse := by
  simp [finishNoRes]
@[simp] theorem finishNoRes_regs (n a : Nat) : (finishNoRes n a s).regs = s.regs := by
  simp [finishNoRes]
@[simp] theorem finishNoRes_fns (n a : Nat) : (finishNoRes n a s).fns = s.fns := by
  simp [finishNoRes]
@[simp] theorem finishNoRes_host (n a : Nat) : (finishNoRes n a s).host = s.host := by
  simp [finishNoRes]
@[simp] theorem finishNoRes_nextOrder (n a : Nat) : (finishNoRes n a s).nextOrder = s.nextOrder := by
  simp [finishNoRes]
@[simp] theorem finishNoRes_contexts (n a : Nat) : (finishNoRes n a s).contexts = s.contexts := by
  simp [finishNoRes]
@[simp] theorem finishNoRes_streams (n a : Nat) : (finishNoRes n a s).streams = s.streams := by
  simp [finishNoRes]
@[simp] theorem finishNoRes_slotUses (n a : Nat) : (finishNoRes n a s).slotUses = s.slotUses := by
  simp [finishNoRes]
@[simp] theorem finishNoRes_due (n a : Nat) : (finishNoRes n a s).due = s.due := by
  simp [finishNoRes]
@[simp] theorem finishNoRes_eng (n a : Nat) : (finishNoRes n a s).eng = s.eng := by
  simp [finishNoRes]
@[simp] theorem finishNoRes_mem (n a : Nat) : (finishNoRes n a s).mem = s.mem := by
  simp [finishNoRes]
@[simp] theorem finishNoRes_links (n a : Nat) : (finishNoRes n a s).links = s.links := by
  simp [finishNoRes]
@[simp] theorem finishNoRes_fab (n a : Nat) : (finishNoRes n a s).fab = s.fab := by
  simp [finishNoRes]
@[simp] theorem finishNoRes_herd (n a : Nat) : (finishNoRes n a s).herd = s.herd := by
  simp [finishNoRes]
@[simp] theorem finishNoRes_errs (n a : Nat) : (finishNoRes n a s).errs = s.errs := by
  simp [finishNoRes]
@[simp] theorem finishNoRes_pwr (n a : Nat) : (finishNoRes n a s).pwr = s.pwr := by
  simp [finishNoRes]
@[simp] theorem finishNoRes_counters (n a : Nat) : (finishNoRes n a s).counters = s.counters := by
  simp [finishNoRes]
@[simp] theorem finishNoRes_tally (n a : Nat) : (finishNoRes n a s).tally = s.tally := by
  simp [finishNoRes]
@[simp] theorem finishNoRes_free (n a : Nat) : (finishNoRes n a s).free = s.free := by
  simp [finishNoRes]
@[simp] theorem finishNoRes_pending (n a : Nat) : (finishNoRes n a s).pending = s.pending := by
  simp [finishNoRes]

@[simp] theorem finishBad_boot (n a b : Nat) : (finishBad n a b s).boot = s.boot := by
  simp [finishBad]
@[simp] theorem finishBad_fuse (n a b : Nat) : (finishBad n a b s).fuse = s.fuse := by
  simp [finishBad]
@[simp] theorem finishBad_regs (n a b : Nat) : (finishBad n a b s).regs = s.regs := by
  simp [finishBad]
@[simp] theorem finishBad_fns (n a b : Nat) : (finishBad n a b s).fns = s.fns := by
  simp [finishBad]
@[simp] theorem finishBad_host (n a b : Nat) : (finishBad n a b s).host = s.host := by
  simp [finishBad]
@[simp] theorem finishBad_nextOrder (n a b : Nat) : (finishBad n a b s).nextOrder = s.nextOrder := by
  simp [finishBad]
@[simp] theorem finishBad_contexts (n a b : Nat) : (finishBad n a b s).contexts = s.contexts := by
  simp [finishBad]
@[simp] theorem finishBad_streams (n a b : Nat) : (finishBad n a b s).streams = s.streams := by
  simp [finishBad]
@[simp] theorem finishBad_slotUses (n a b : Nat) : (finishBad n a b s).slotUses = s.slotUses := by
  simp [finishBad]
@[simp] theorem finishBad_due (n a b : Nat) : (finishBad n a b s).due = s.due := by
  simp [finishBad]
@[simp] theorem finishBad_eng (n a b : Nat) : (finishBad n a b s).eng = s.eng := by
  simp [finishBad]
@[simp] theorem finishBad_mem (n a b : Nat) : (finishBad n a b s).mem = s.mem := by
  simp [finishBad]
@[simp] theorem finishBad_links (n a b : Nat) : (finishBad n a b s).links = s.links := by
  simp [finishBad]
@[simp] theorem finishBad_fab (n a b : Nat) : (finishBad n a b s).fab = s.fab := by
  simp [finishBad]
@[simp] theorem finishBad_herd (n a b : Nat) : (finishBad n a b s).herd = s.herd := by
  simp [finishBad]
@[simp] theorem finishBad_errs (n a b : Nat) : (finishBad n a b s).errs = s.errs := by
  simp [finishBad]
@[simp] theorem finishBad_pwr (n a b : Nat) : (finishBad n a b s).pwr = s.pwr := by
  simp [finishBad]
@[simp] theorem finishBad_counters (n a b : Nat) : (finishBad n a b s).counters = s.counters := by
  simp [finishBad]
@[simp] theorem finishBad_tally (n a b : Nat) : (finishBad n a b s).tally = s.tally := by
  simp [finishBad]
@[simp] theorem finishBad_free (n a b : Nat) : (finishBad n a b s).free = s.free := by
  simp [finishBad]
@[simp] theorem finishBad_pending (n a b : Nat) : (finishBad n a b s).pending = s.pending := by
  simp [finishBad]

@[simp] theorem signalVector_boot (f v : Nat) : (signalVector f v s).boot = s.boot := by
  unfold signalVector; split
  · simp
  · split <;> simp
@[simp] theorem signalVector_fuse (f v : Nat) : (signalVector f v s).fuse = s.fuse := by
  unfold signalVector; split
  · simp
  · split <;> simp
@[simp] theorem signalVector_regs (f v : Nat) : (signalVector f v s).regs = s.regs := by
  unfold signalVector; split
  · simp
  · split <;> simp
@[simp] theorem signalVector_cmds (f v : Nat) : (signalVector f v s).cmds = s.cmds := by
  unfold signalVector; split
  · simp
  · split <;> simp
@[simp] theorem signalVector_nextOrder (f v : Nat) : (signalVector f v s).nextOrder = s.nextOrder := by
  unfold signalVector; split
  · simp
  · split <;> simp
@[simp] theorem signalVector_contexts (f v : Nat) : (signalVector f v s).contexts = s.contexts := by
  unfold signalVector; split
  · simp
  · split <;> simp
@[simp] theorem signalVector_streams (f v : Nat) : (signalVector f v s).streams = s.streams := by
  unfold signalVector; split
  · simp
  · split <;> simp
@[simp] theorem signalVector_slotUses (f v : Nat) : (signalVector f v s).slotUses = s.slotUses := by
  unfold signalVector; split
  · simp
  · split <;> simp
@[simp] theorem signalVector_due (f v : Nat) : (signalVector f v s).due = s.due := by
  unfold signalVector; split
  · simp
  · split <;> simp
@[simp] theorem signalVector_eng (f v : Nat) : (signalVector f v s).eng = s.eng := by
  unfold signalVector; split
  · simp
  · split <;> simp
@[simp] theorem signalVector_mem (f v : Nat) : (signalVector f v s).mem = s.mem := by
  unfold signalVector; split
  · simp
  · split <;> simp
@[simp] theorem signalVector_links (f v : Nat) : (signalVector f v s).links = s.links := by
  unfold signalVector; split
  · simp
  · split <;> simp
@[simp] theorem signalVector_fab (f v : Nat) : (signalVector f v s).fab = s.fab := by
  unfold signalVector; split
  · simp
  · split <;> simp
@[simp] theorem signalVector_herd (f v : Nat) : (signalVector f v s).herd = s.herd := by
  unfold signalVector; split
  · simp
  · split <;> simp
@[simp] theorem signalVector_errs (f v : Nat) : (signalVector f v s).errs = s.errs := by
  unfold signalVector; split
  · simp
  · split <;> simp
@[simp] theorem signalVector_pwr (f v : Nat) : (signalVector f v s).pwr = s.pwr := by
  unfold signalVector; split
  · simp
  · split <;> simp
@[simp] theorem signalVector_mgt (f v : Nat) : (signalVector f v s).mgt = s.mgt := by
  unfold signalVector; split
  · simp
  · split <;> simp
@[simp] theorem signalVector_counters (f v : Nat) : (signalVector f v s).counters = s.counters := by
  unfold signalVector; split
  · simp
  · split <;> simp
@[simp] theorem signalVector_tally (f v : Nat) : (signalVector f v s).tally = s.tally := by
  unfold signalVector; split
  · simp
  · split <;> simp
@[simp] theorem signalVector_free (f v : Nat) : (signalVector f v s).free = s.free := by
  unfold signalVector; split
  · simp
  · split <;> simp
@[simp] theorem signalVector_pending (f v : Nat) : (signalVector f v s).pending = s.pending := by
  unfold signalVector; split
  · simp
  · split <;> simp

@[simp] theorem signalRing_boot (f v : Nat) : (signalRing f v s).boot = s.boot := by
  unfold signalRing; split <;> simp
@[simp] theorem signalRing_fuse (f v : Nat) : (signalRing f v s).fuse = s.fuse := by
  unfold signalRing; split <;> simp
@[simp] theorem signalRing_regs (f v : Nat) : (signalRing f v s).regs = s.regs := by
  unfold signalRing; split <;> simp
@[simp] theorem signalRing_cmds (f v : Nat) : (signalRing f v s).cmds = s.cmds := by
  unfold signalRing; split <;> simp
@[simp] theorem signalRing_nextOrder (f v : Nat) : (signalRing f v s).nextOrder = s.nextOrder := by
  unfold signalRing; split <;> simp
@[simp] theorem signalRing_contexts (f v : Nat) : (signalRing f v s).contexts = s.contexts := by
  unfold signalRing; split <;> simp
@[simp] theorem signalRing_streams (f v : Nat) : (signalRing f v s).streams = s.streams := by
  unfold signalRing; split <;> simp
@[simp] theorem signalRing_slotUses (f v : Nat) : (signalRing f v s).slotUses = s.slotUses := by
  unfold signalRing; split <;> simp
@[simp] theorem signalRing_due (f v : Nat) : (signalRing f v s).due = s.due := by
  unfold signalRing; split <;> simp
@[simp] theorem signalRing_eng (f v : Nat) : (signalRing f v s).eng = s.eng := by
  unfold signalRing; split <;> simp
@[simp] theorem signalRing_mem (f v : Nat) : (signalRing f v s).mem = s.mem := by
  unfold signalRing; split <;> simp
@[simp] theorem signalRing_links (f v : Nat) : (signalRing f v s).links = s.links := by
  unfold signalRing; split <;> simp
@[simp] theorem signalRing_fab (f v : Nat) : (signalRing f v s).fab = s.fab := by
  unfold signalRing; split <;> simp
@[simp] theorem signalRing_herd (f v : Nat) : (signalRing f v s).herd = s.herd := by
  unfold signalRing; split <;> simp
@[simp] theorem signalRing_errs (f v : Nat) : (signalRing f v s).errs = s.errs := by
  unfold signalRing; split <;> simp
@[simp] theorem signalRing_pwr (f v : Nat) : (signalRing f v s).pwr = s.pwr := by
  unfold signalRing; split <;> simp
@[simp] theorem signalRing_mgt (f v : Nat) : (signalRing f v s).mgt = s.mgt := by
  unfold signalRing; split <;> simp
@[simp] theorem signalRing_counters (f v : Nat) : (signalRing f v s).counters = s.counters := by
  unfold signalRing; split <;> simp
@[simp] theorem signalRing_tally (f v : Nat) : (signalRing f v s).tally = s.tally := by
  unfold signalRing; split <;> simp
@[simp] theorem signalRing_free (f v : Nat) : (signalRing f v s).free = s.free := by
  unfold signalRing; split <;> simp
@[simp] theorem signalRing_pending (f v : Nat) : (signalRing f v s).pending = s.pending := by
  unfold signalRing; split <;> simp

@[simp] theorem recordSignal_boot (f v : Nat) : (recordSignal f v s).boot = s.boot := by
  unfold recordSignal; split
  · dsimp only; split <;> simp
  · simp
@[simp] theorem recordSignal_fuse (f v : Nat) : (recordSignal f v s).fuse = s.fuse := by
  unfold recordSignal; split
  · dsimp only; split <;> simp
  · simp
@[simp] theorem recordSignal_regs (f v : Nat) : (recordSignal f v s).regs = s.regs := by
  unfold recordSignal; split
  · dsimp only; split <;> simp
  · simp
@[simp] theorem recordSignal_cmds (f v : Nat) : (recordSignal f v s).cmds = s.cmds := by
  unfold recordSignal; split
  · dsimp only; split <;> simp
  · simp
@[simp] theorem recordSignal_nextOrder (f v : Nat) : (recordSignal f v s).nextOrder = s.nextOrder := by
  unfold recordSignal; split
  · dsimp only; split <;> simp
  · simp
@[simp] theorem recordSignal_contexts (f v : Nat) : (recordSignal f v s).contexts = s.contexts := by
  unfold recordSignal; split
  · dsimp only; split <;> simp
  · simp
@[simp] theorem recordSignal_streams (f v : Nat) : (recordSignal f v s).streams = s.streams := by
  unfold recordSignal; split
  · dsimp only; split <;> simp
  · simp
@[simp] theorem recordSignal_slotUses (f v : Nat) : (recordSignal f v s).slotUses = s.slotUses := by
  unfold recordSignal; split
  · dsimp only; split <;> simp
  · simp
@[simp] theorem recordSignal_due (f v : Nat) : (recordSignal f v s).due = s.due := by
  unfold recordSignal; split
  · dsimp only; split <;> simp
  · simp
@[simp] theorem recordSignal_eng (f v : Nat) : (recordSignal f v s).eng = s.eng := by
  unfold recordSignal; split
  · dsimp only; split <;> simp
  · simp
@[simp] theorem recordSignal_mem (f v : Nat) : (recordSignal f v s).mem = s.mem := by
  unfold recordSignal; split
  · dsimp only; split <;> simp
  · simp
@[simp] theorem recordSignal_links (f v : Nat) : (recordSignal f v s).links = s.links := by
  unfold recordSignal; split
  · dsimp only; split <;> simp
  · simp
@[simp] theorem recordSignal_fab (f v : Nat) : (recordSignal f v s).fab = s.fab := by
  unfold recordSignal; split
  · dsimp only; split <;> simp
  · simp
@[simp] theorem recordSignal_herd (f v : Nat) : (recordSignal f v s).herd = s.herd := by
  unfold recordSignal; split
  · dsimp only; split <;> simp
  · simp
@[simp] theorem recordSignal_errs (f v : Nat) : (recordSignal f v s).errs = s.errs := by
  unfold recordSignal; split
  · dsimp only; split <;> simp
  · simp
@[simp] theorem recordSignal_pwr (f v : Nat) : (recordSignal f v s).pwr = s.pwr := by
  unfold recordSignal; split
  · dsimp only; split <;> simp
  · simp
@[simp] theorem recordSignal_mgt (f v : Nat) : (recordSignal f v s).mgt = s.mgt := by
  unfold recordSignal; split
  · dsimp only; split <;> simp
  · simp
@[simp] theorem recordSignal_counters (f v : Nat) : (recordSignal f v s).counters = s.counters := by
  unfold recordSignal; split
  · dsimp only; split <;> simp
  · simp
@[simp] theorem recordSignal_tally (f v : Nat) : (recordSignal f v s).tally = s.tally := by
  unfold recordSignal; split
  · dsimp only; split <;> simp
  · simp
@[simp] theorem recordSignal_free (f v : Nat) : (recordSignal f v s).free = s.free := by
  unfold recordSignal; split
  · dsimp only; split <;> simp
  · simp
@[simp] theorem recordSignal_pending (f v : Nat) : (recordSignal f v s).pending = s.pending := by
  unfold recordSignal; split
  · dsimp only; split <;> simp
  · simp

@[simp] theorem publish_boot (f n : Nat) : (publish f n s).boot = s.boot := by
  unfold publish; repeat' split
  all_goals rfl
@[simp] theorem publish_fuse (f n : Nat) : (publish f n s).fuse = s.fuse := by
  unfold publish; repeat' split
  all_goals rfl
@[simp] theorem publish_regs (f n : Nat) : (publish f n s).regs = s.regs := by
  unfold publish; repeat' split
  all_goals rfl
@[simp] theorem publish_fns (f n : Nat) : (publish f n s).fns = s.fns := by
  unfold publish; repeat' split
  all_goals rfl
@[simp] theorem publish_cmds (f n : Nat) : (publish f n s).cmds = s.cmds := by
  unfold publish; repeat' split
  all_goals rfl
@[simp] theorem publish_nextOrder (f n : Nat) : (publish f n s).nextOrder = s.nextOrder := by
  unfold publish; repeat' split
  all_goals rfl
@[simp] theorem publish_contexts (f n : Nat) : (publish f n s).contexts = s.contexts := by
  unfold publish; repeat' split
  all_goals rfl
@[simp] theorem publish_streams (f n : Nat) : (publish f n s).streams = s.streams := by
  unfold publish; repeat' split
  all_goals rfl
@[simp] theorem publish_slotUses (f n : Nat) : (publish f n s).slotUses = s.slotUses := by
  unfold publish; repeat' split
  all_goals rfl
@[simp] theorem publish_due (f n : Nat) : (publish f n s).due = s.due := by
  unfold publish; repeat' split
  all_goals rfl
@[simp] theorem publish_eng (f n : Nat) : (publish f n s).eng = s.eng := by
  unfold publish; repeat' split
  all_goals rfl
@[simp] theorem publish_mem (f n : Nat) : (publish f n s).mem = s.mem := by
  unfold publish; repeat' split
  all_goals rfl
@[simp] theorem publish_links (f n : Nat) : (publish f n s).links = s.links := by
  unfold publish; repeat' split
  all_goals rfl
@[simp] theorem publish_fab (f n : Nat) : (publish f n s).fab = s.fab := by
  unfold publish; repeat' split
  all_goals rfl
@[simp] theorem publish_herd (f n : Nat) : (publish f n s).herd = s.herd := by
  unfold publish; repeat' split
  all_goals rfl
@[simp] theorem publish_errs (f n : Nat) : (publish f n s).errs = s.errs := by
  unfold publish; repeat' split
  all_goals rfl
@[simp] theorem publish_pwr (f n : Nat) : (publish f n s).pwr = s.pwr := by
  unfold publish; repeat' split
  all_goals rfl
@[simp] theorem publish_mgt (f n : Nat) : (publish f n s).mgt = s.mgt := by
  unfold publish; repeat' split
  all_goals rfl
@[simp] theorem publish_counters (f n : Nat) : (publish f n s).counters = s.counters := by
  unfold publish; repeat' split
  all_goals rfl
@[simp] theorem publish_tally (f n : Nat) : (publish f n s).tally = s.tally := by
  unfold publish; repeat' split
  all_goals rfl
@[simp] theorem publish_free (f n : Nat) : (publish f n s).free = s.free := by
  unfold publish; repeat' split
  all_goals rfl
@[simp] theorem publish_out (f n : Nat) : (publish f n s).out = s.out := by
  unfold publish; repeat' split
  all_goals rfl
@[simp] theorem publish_pending (f n : Nat) : (publish f n s).pending = s.pending := by
  unfold publish; repeat' split
  all_goals rfl

@[simp] theorem writeEvent_boot (f n : Nat) (r : Ring) (a b c : Nat) (d : List Byte) : (writeEvent f n r a b c d s).boot = s.boot := by
  simp [writeEvent]
@[simp] theorem writeEvent_fuse (f n : Nat) (r : Ring) (a b c : Nat) (d : List Byte) : (writeEvent f n r a b c d s).fuse = s.fuse := by
  simp [writeEvent]
@[simp] theorem writeEvent_regs (f n : Nat) (r : Ring) (a b c : Nat) (d : List Byte) : (writeEvent f n r a b c d s).regs = s.regs := by
  simp [writeEvent]
@[simp] theorem writeEvent_cmds (f n : Nat) (r : Ring) (a b c : Nat) (d : List Byte) : (writeEvent f n r a b c d s).cmds = s.cmds := by
  simp [writeEvent]
@[simp] theorem writeEvent_nextOrder (f n : Nat) (r : Ring) (a b c : Nat) (d : List Byte) : (writeEvent f n r a b c d s).nextOrder = s.nextOrder := by
  simp [writeEvent]
@[simp] theorem writeEvent_contexts (f n : Nat) (r : Ring) (a b c : Nat) (d : List Byte) : (writeEvent f n r a b c d s).contexts = s.contexts := by
  simp [writeEvent]
@[simp] theorem writeEvent_streams (f n : Nat) (r : Ring) (a b c : Nat) (d : List Byte) : (writeEvent f n r a b c d s).streams = s.streams := by
  simp [writeEvent]
@[simp] theorem writeEvent_slotUses (f n : Nat) (r : Ring) (a b c : Nat) (d : List Byte) : (writeEvent f n r a b c d s).slotUses = s.slotUses := by
  simp [writeEvent]
@[simp] theorem writeEvent_due (f n : Nat) (r : Ring) (a b c : Nat) (d : List Byte) : (writeEvent f n r a b c d s).due = s.due := by
  simp [writeEvent]
@[simp] theorem writeEvent_eng (f n : Nat) (r : Ring) (a b c : Nat) (d : List Byte) : (writeEvent f n r a b c d s).eng = s.eng := by
  simp [writeEvent]
@[simp] theorem writeEvent_mem (f n : Nat) (r : Ring) (a b c : Nat) (d : List Byte) : (writeEvent f n r a b c d s).mem = s.mem := by
  simp [writeEvent]
@[simp] theorem writeEvent_links (f n : Nat) (r : Ring) (a b c : Nat) (d : List Byte) : (writeEvent f n r a b c d s).links = s.links := by
  simp [writeEvent]
@[simp] theorem writeEvent_fab (f n : Nat) (r : Ring) (a b c : Nat) (d : List Byte) : (writeEvent f n r a b c d s).fab = s.fab := by
  simp [writeEvent]
@[simp] theorem writeEvent_herd (f n : Nat) (r : Ring) (a b c : Nat) (d : List Byte) : (writeEvent f n r a b c d s).herd = s.herd := by
  simp [writeEvent]
@[simp] theorem writeEvent_errs (f n : Nat) (r : Ring) (a b c : Nat) (d : List Byte) : (writeEvent f n r a b c d s).errs = s.errs := by
  simp [writeEvent]
@[simp] theorem writeEvent_pwr (f n : Nat) (r : Ring) (a b c : Nat) (d : List Byte) : (writeEvent f n r a b c d s).pwr = s.pwr := by
  simp [writeEvent]
@[simp] theorem writeEvent_mgt (f n : Nat) (r : Ring) (a b c : Nat) (d : List Byte) : (writeEvent f n r a b c d s).mgt = s.mgt := by
  simp [writeEvent]
@[simp] theorem writeEvent_counters (f n : Nat) (r : Ring) (a b c : Nat) (d : List Byte) : (writeEvent f n r a b c d s).counters = s.counters := by
  simp [writeEvent]
@[simp] theorem writeEvent_tally (f n : Nat) (r : Ring) (a b c : Nat) (d : List Byte) : (writeEvent f n r a b c d s).tally = s.tally := by
  simp [writeEvent]
@[simp] theorem writeEvent_free (f n : Nat) (r : Ring) (a b c : Nat) (d : List Byte) : (writeEvent f n r a b c d s).free = s.free := by
  simp [writeEvent]
@[simp] theorem writeEvent_pending (f n : Nat) (r : Ring) (a b c : Nat) (d : List Byte) : (writeEvent f n r a b c d s).pending = s.pending := by
  simp [writeEvent]

@[simp] theorem postEvent_boot (f a b c : Nat) (d : List Byte) : (postEvent f a b c d s).boot = s.boot := by
  unfold postEvent; split
  · simp
  · split <;> simp
@[simp] theorem postEvent_fuse (f a b c : Nat) (d : List Byte) : (postEvent f a b c d s).fuse = s.fuse := by
  unfold postEvent; split
  · simp
  · split <;> simp
@[simp] theorem postEvent_regs (f a b c : Nat) (d : List Byte) : (postEvent f a b c d s).regs = s.regs := by
  unfold postEvent; split
  · simp
  · split <;> simp
@[simp] theorem postEvent_cmds (f a b c : Nat) (d : List Byte) : (postEvent f a b c d s).cmds = s.cmds := by
  unfold postEvent; split
  · simp
  · split <;> simp
@[simp] theorem postEvent_nextOrder (f a b c : Nat) (d : List Byte) : (postEvent f a b c d s).nextOrder = s.nextOrder := by
  unfold postEvent; split
  · simp
  · split <;> simp
@[simp] theorem postEvent_contexts (f a b c : Nat) (d : List Byte) : (postEvent f a b c d s).contexts = s.contexts := by
  unfold postEvent; split
  · simp
  · split <;> simp
@[simp] theorem postEvent_streams (f a b c : Nat) (d : List Byte) : (postEvent f a b c d s).streams = s.streams := by
  unfold postEvent; split
  · simp
  · split <;> simp
@[simp] theorem postEvent_slotUses (f a b c : Nat) (d : List Byte) : (postEvent f a b c d s).slotUses = s.slotUses := by
  unfold postEvent; split
  · simp
  · split <;> simp
@[simp] theorem postEvent_due (f a b c : Nat) (d : List Byte) : (postEvent f a b c d s).due = s.due := by
  unfold postEvent; split
  · simp
  · split <;> simp
@[simp] theorem postEvent_eng (f a b c : Nat) (d : List Byte) : (postEvent f a b c d s).eng = s.eng := by
  unfold postEvent; split
  · simp
  · split <;> simp
@[simp] theorem postEvent_mem (f a b c : Nat) (d : List Byte) : (postEvent f a b c d s).mem = s.mem := by
  unfold postEvent; split
  · simp
  · split <;> simp
@[simp] theorem postEvent_links (f a b c : Nat) (d : List Byte) : (postEvent f a b c d s).links = s.links := by
  unfold postEvent; split
  · simp
  · split <;> simp
@[simp] theorem postEvent_fab (f a b c : Nat) (d : List Byte) : (postEvent f a b c d s).fab = s.fab := by
  unfold postEvent; split
  · simp
  · split <;> simp
@[simp] theorem postEvent_herd (f a b c : Nat) (d : List Byte) : (postEvent f a b c d s).herd = s.herd := by
  unfold postEvent; split
  · simp
  · split <;> simp
@[simp] theorem postEvent_errs (f a b c : Nat) (d : List Byte) : (postEvent f a b c d s).errs = s.errs := by
  unfold postEvent; split
  · simp
  · split <;> simp
@[simp] theorem postEvent_pwr (f a b c : Nat) (d : List Byte) : (postEvent f a b c d s).pwr = s.pwr := by
  unfold postEvent; split
  · simp
  · split <;> simp
@[simp] theorem postEvent_mgt (f a b c : Nat) (d : List Byte) : (postEvent f a b c d s).mgt = s.mgt := by
  unfold postEvent; split
  · simp
  · split <;> simp
@[simp] theorem postEvent_counters (f a b c : Nat) (d : List Byte) : (postEvent f a b c d s).counters = s.counters := by
  unfold postEvent; split
  · simp
  · split <;> simp
@[simp] theorem postEvent_tally (f a b c : Nat) (d : List Byte) : (postEvent f a b c d s).tally = s.tally := by
  unfold postEvent; split
  · simp
  · split <;> simp
@[simp] theorem postEvent_free (f a b c : Nat) (d : List Byte) : (postEvent f a b c d s).free = s.free := by
  unfold postEvent; split
  · simp
  · split <;> simp
@[simp] theorem postEvent_pending (f a b c : Nat) (d : List Byte) : (postEvent f a b c d s).pending = s.pending := by
  unfold postEvent; split
  · simp
  · split <;> simp

@[simp] theorem postLost_boot (f : Nat) : (postLost f s).boot = s.boot := by
  unfold postLost; split
  · simp
  · dsimp only; split <;> simp
@[simp] theorem postLost_fuse (f : Nat) : (postLost f s).fuse = s.fuse := by
  unfold postLost; split
  · simp
  · dsimp only; split <;> simp
@[simp] theorem postLost_regs (f : Nat) : (postLost f s).regs = s.regs := by
  unfold postLost; split
  · simp
  · dsimp only; split <;> simp
@[simp] theorem postLost_cmds (f : Nat) : (postLost f s).cmds = s.cmds := by
  unfold postLost; split
  · simp
  · dsimp only; split <;> simp
@[simp] theorem postLost_nextOrder (f : Nat) : (postLost f s).nextOrder = s.nextOrder := by
  unfold postLost; split
  · simp
  · dsimp only; split <;> simp
@[simp] theorem postLost_contexts (f : Nat) : (postLost f s).contexts = s.contexts := by
  unfold postLost; split
  · simp
  · dsimp only; split <;> simp
@[simp] theorem postLost_streams (f : Nat) : (postLost f s).streams = s.streams := by
  unfold postLost; split
  · simp
  · dsimp only; split <;> simp
@[simp] theorem postLost_slotUses (f : Nat) : (postLost f s).slotUses = s.slotUses := by
  unfold postLost; split
  · simp
  · dsimp only; split <;> simp
@[simp] theorem postLost_due (f : Nat) : (postLost f s).due = s.due := by
  unfold postLost; split
  · simp
  · dsimp only; split <;> simp
@[simp] theorem postLost_eng (f : Nat) : (postLost f s).eng = s.eng := by
  unfold postLost; split
  · simp
  · dsimp only; split <;> simp
@[simp] theorem postLost_mem (f : Nat) : (postLost f s).mem = s.mem := by
  unfold postLost; split
  · simp
  · dsimp only; split <;> simp
@[simp] theorem postLost_links (f : Nat) : (postLost f s).links = s.links := by
  unfold postLost; split
  · simp
  · dsimp only; split <;> simp
@[simp] theorem postLost_fab (f : Nat) : (postLost f s).fab = s.fab := by
  unfold postLost; split
  · simp
  · dsimp only; split <;> simp
@[simp] theorem postLost_herd (f : Nat) : (postLost f s).herd = s.herd := by
  unfold postLost; split
  · simp
  · dsimp only; split <;> simp
@[simp] theorem postLost_errs (f : Nat) : (postLost f s).errs = s.errs := by
  unfold postLost; split
  · simp
  · dsimp only; split <;> simp
@[simp] theorem postLost_pwr (f : Nat) : (postLost f s).pwr = s.pwr := by
  unfold postLost; split
  · simp
  · dsimp only; split <;> simp
@[simp] theorem postLost_mgt (f : Nat) : (postLost f s).mgt = s.mgt := by
  unfold postLost; split
  · simp
  · dsimp only; split <;> simp
@[simp] theorem postLost_counters (f : Nat) : (postLost f s).counters = s.counters := by
  unfold postLost; split
  · simp
  · dsimp only; split <;> simp
@[simp] theorem postLost_tally (f : Nat) : (postLost f s).tally = s.tally := by
  unfold postLost; split
  · simp
  · dsimp only; split <;> simp
@[simp] theorem postLost_free (f : Nat) : (postLost f s).free = s.free := by
  unfold postLost; split
  · simp
  · dsimp only; split <;> simp
@[simp] theorem postLost_pending (f : Nat) : (postLost f s).pending = s.pending := by
  unfold postLost; split
  · simp
  · dsimp only; split <;> simp

@[simp] theorem recordErr_boot (e : ErrRec) : (recordErr e s).boot = s.boot := by
  unfold recordErr; dsimp only; split <;> simp
@[simp] theorem recordErr_fuse (e : ErrRec) : (recordErr e s).fuse = s.fuse := by
  unfold recordErr; dsimp only; split <;> simp
@[simp] theorem recordErr_regs (e : ErrRec) : (recordErr e s).regs = s.regs := by
  unfold recordErr; dsimp only; split <;> simp
@[simp] theorem recordErr_cmds (e : ErrRec) : (recordErr e s).cmds = s.cmds := by
  unfold recordErr; dsimp only; split <;> simp
@[simp] theorem recordErr_nextOrder (e : ErrRec) : (recordErr e s).nextOrder = s.nextOrder := by
  unfold recordErr; dsimp only; split <;> simp
@[simp] theorem recordErr_contexts (e : ErrRec) : (recordErr e s).contexts = s.contexts := by
  unfold recordErr; dsimp only; split <;> simp
@[simp] theorem recordErr_streams (e : ErrRec) : (recordErr e s).streams = s.streams := by
  unfold recordErr; dsimp only; split <;> simp
@[simp] theorem recordErr_slotUses (e : ErrRec) : (recordErr e s).slotUses = s.slotUses := by
  unfold recordErr; dsimp only; split <;> simp
@[simp] theorem recordErr_due (e : ErrRec) : (recordErr e s).due = s.due := by
  unfold recordErr; dsimp only; split <;> simp
@[simp] theorem recordErr_eng (e : ErrRec) : (recordErr e s).eng = s.eng := by
  unfold recordErr; dsimp only; split <;> simp
@[simp] theorem recordErr_mem (e : ErrRec) : (recordErr e s).mem = s.mem := by
  unfold recordErr; dsimp only; split <;> simp
@[simp] theorem recordErr_links (e : ErrRec) : (recordErr e s).links = s.links := by
  unfold recordErr; dsimp only; split <;> simp
@[simp] theorem recordErr_fab (e : ErrRec) : (recordErr e s).fab = s.fab := by
  unfold recordErr; dsimp only; split <;> simp
@[simp] theorem recordErr_herd (e : ErrRec) : (recordErr e s).herd = s.herd := by
  unfold recordErr; dsimp only; split <;> simp
@[simp] theorem recordErr_pwr (e : ErrRec) : (recordErr e s).pwr = s.pwr := by
  unfold recordErr; dsimp only; split <;> simp
@[simp] theorem recordErr_mgt (e : ErrRec) : (recordErr e s).mgt = s.mgt := by
  unfold recordErr; dsimp only; split <;> simp
@[simp] theorem recordErr_counters (e : ErrRec) : (recordErr e s).counters = s.counters := by
  unfold recordErr; dsimp only; split <;> simp
@[simp] theorem recordErr_tally (e : ErrRec) : (recordErr e s).tally = s.tally := by
  unfold recordErr; dsimp only; split <;> simp
@[simp] theorem recordErr_free (e : ErrRec) : (recordErr e s).free = s.free := by
  unfold recordErr; dsimp only; split <;> simp
@[simp] theorem recordErr_pending (e : ErrRec) : (recordErr e s).pending = s.pending := by
  unfold recordErr; dsimp only; split <;> simp

@[simp] theorem addressErr_boot (a : Nat) (w : Bool) : (addressErr a w s).boot = s.boot := by
  simp [addressErr]
@[simp] theorem addressErr_fuse (a : Nat) (w : Bool) : (addressErr a w s).fuse = s.fuse := by
  simp [addressErr]
@[simp] theorem addressErr_regs (a : Nat) (w : Bool) : (addressErr a w s).regs = s.regs := by
  simp [addressErr]
@[simp] theorem addressErr_cmds (a : Nat) (w : Bool) : (addressErr a w s).cmds = s.cmds := by
  simp [addressErr]
@[simp] theorem addressErr_nextOrder (a : Nat) (w : Bool) : (addressErr a w s).nextOrder = s.nextOrder := by
  simp [addressErr]
@[simp] theorem addressErr_contexts (a : Nat) (w : Bool) : (addressErr a w s).contexts = s.contexts := by
  simp [addressErr]
@[simp] theorem addressErr_streams (a : Nat) (w : Bool) : (addressErr a w s).streams = s.streams := by
  simp [addressErr]
@[simp] theorem addressErr_slotUses (a : Nat) (w : Bool) : (addressErr a w s).slotUses = s.slotUses := by
  simp [addressErr]
@[simp] theorem addressErr_due (a : Nat) (w : Bool) : (addressErr a w s).due = s.due := by
  simp [addressErr]
@[simp] theorem addressErr_eng (a : Nat) (w : Bool) : (addressErr a w s).eng = s.eng := by
  simp [addressErr]
@[simp] theorem addressErr_mem (a : Nat) (w : Bool) : (addressErr a w s).mem = s.mem := by
  simp [addressErr]
@[simp] theorem addressErr_links (a : Nat) (w : Bool) : (addressErr a w s).links = s.links := by
  simp [addressErr]
@[simp] theorem addressErr_fab (a : Nat) (w : Bool) : (addressErr a w s).fab = s.fab := by
  simp [addressErr]
@[simp] theorem addressErr_herd (a : Nat) (w : Bool) : (addressErr a w s).herd = s.herd := by
  simp [addressErr]
@[simp] theorem addressErr_pwr (a : Nat) (w : Bool) : (addressErr a w s).pwr = s.pwr := by
  simp [addressErr]
@[simp] theorem addressErr_mgt (a : Nat) (w : Bool) : (addressErr a w s).mgt = s.mgt := by
  simp [addressErr]
@[simp] theorem addressErr_counters (a : Nat) (w : Bool) : (addressErr a w s).counters = s.counters := by
  simp [addressErr]
@[simp] theorem addressErr_tally (a : Nat) (w : Bool) : (addressErr a w s).tally = s.tally := by
  simp [addressErr]
@[simp] theorem addressErr_free (a : Nat) (w : Bool) : (addressErr a w s).free = s.free := by
  simp [addressErr]
@[simp] theorem addressErr_pending (a : Nat) (w : Bool) : (addressErr a w s).pending = s.pending := by
  simp [addressErr]


/-! ### Fleos commands -/

/-- A command whose turn has come and that a common check turns away completes with that check's status. -/
theorem runCmd_fails {op : Nat} {src : CmdSrc} {f g : FleosCmd → State → State} {s : State} {c : FleosCmd} {st d r : Nat}
    (h : turnOf s src op c) (hc : checkRun s c = some (st, d, r)) : runCmd op src f g s = .next (finish c.order st d r s) := by
  obtain ⟨h1, h2, h3, h4, h5, h6⟩ := h
  simp [runCmd, h1, h2, h3, h4, h5, h6, hc]

/-- A command whose turn has come and that passes the common checks runs. -/
theorem runCmd_runs {op : Nat} {src : CmdSrc} {f g : FleosCmd → State → State} {s : State} {c : FleosCmd}
    (h : runsNow s src op c) : runCmd op src f g s = .next (f c (running c s)) := by
  obtain ⟨⟨h1, h2, h3, h4, h5, h6⟩, hc⟩ := h
  simp [runCmd, running, h1, h2, h3, h4, h5, h6, hc]

/-- A command that is running has its row's second effect. -/
theorem runCmd_again {op : Nat} {src : CmdSrc} {f g : FleosCmd → State → State} {s : State} {c : FleosCmd}
    (h1 : cmdOf s src = some c) (h2 : c.opcode = op) (h3 : c.phase = .running) : runCmd op src f g s = .next (g c s) := by
  simp [runCmd, h1, h2, h3]

@[simp] theorem running_contexts (c : FleosCmd) (s : State) : (running c s).contexts = s.contexts := rfl
@[simp] theorem running_streams (c : FleosCmd) (s : State) : (running c s).streams = s.streams := rfl
@[simp] theorem running_boot (c : FleosCmd) (s : State) : (running c s).boot = s.boot := rfl
@[simp] theorem running_eng (c : FleosCmd) (s : State) : (running c s).eng = s.eng := rfl
@[simp] theorem running_host (c : FleosCmd) (s : State) : (running c s).host = s.host := rfl
@[simp] theorem running_pwr (c : FleosCmd) (s : State) : (running c s).pwr = s.pwr := rfl
@[simp] theorem running_herd (c : FleosCmd) (s : State) : (running c s).herd = s.herd := rfl
@[simp] theorem running_regs (c : FleosCmd) (s : State) : (running c s).regs = s.regs := rfl
@[simp] theorem running_mem (c : FleosCmd) (s : State) : (running c s).mem = s.mem := rfl
@[simp] theorem running_mgt (c : FleosCmd) (s : State) : (running c s).mgt = s.mgt := rfl

end Sys2Proof.Machine
end

