-- ==== Sys2Proof/Laws/Rings.lean ====
section
/-! SUPPORT. Laws of functions, rings and host memory: what an update of one function or ring does to every other, and what a
write to host memory makes its reads answer. -/
namespace Sys2Proof.Machine

theorem fnOf_updFn_same {f : Nat} {g : FnState → FnState} {s : State} (h : f < s.fns.length) :
    fnOf (updFn f g s) f = g (fnOf s f) := by
  simp [fnOf, List.getD, h]

theorem fnOf_updFn_other {f k : Nat} {g : FnState → FnState} {s : State} (h : k ≠ f) : fnOf (updFn f g s) k = fnOf s k := by
  simp [fnOf, List.getD, Ne.symm h]

theorem fns_updFn {f k : Nat} {g : FnState → FnState} {s : State} :
    (updFn f g s).fns[k]? = (s.fns[k]?).map (fun x => if f = k then g x else x) := by
  rw [updFn_fns, List.getElem?_modify]
  by_cases h : f = k <;> simp [h]

@[simp] theorem updFn_length (f : Nat) (g : FnState → FnState) (s : State) : (updFn f g s).fns.length = s.fns.length := by
  simp

@[simp] theorem updRing_length (f n : Nat) (g : Ring → Ring) (s : State) : (updRing f n g s).fns.length = s.fns.length := by
  simp [updRing]

theorem ringAt_updRing_same {f n : Nat} {g : Ring → Ring} {s : State} (h : f < s.fns.length) :
    ringAt (updRing f n g s) f n = (ringAt s f n).map g := by
  simp [ringAt, updRing, fnOf_updFn_same h, tabGet_tabUpd_same]

theorem ringAt_updRing_other {f k n m : Nat} {g : Ring → Ring} {s : State} (h : k ≠ f ∨ m ≠ n) :
    ringAt (updRing f n g s) k m = ringAt s k m := by
  by_cases hk : k = f
  · subst hk
    have hm := h.resolve_left (fun x => x rfl)
    by_cases hl : k < s.fns.length
    · simp [ringAt, updRing, fnOf_updFn_same hl, tabGet_tabUpd_other _ _ _ _ hm]
    · simp [ringAt, updRing, fnOf, List.getD, hl]
  · simp [ringAt, updRing, fnOf_updFn_other hk]

theorem hostBytes_hostPut_same (a : Nat) (bs : List Byte) (s : State) : hostBytes (hostPut a bs s) a bs.length = bs :=
  cellsGet_cellsSet bs s.host.cells a

theorem hostBytes_hostPut_other {a b n : Nat} {bs : List Byte} {s : State} (h : b + n ≤ a ∨ a + bs.length ≤ b) :
    hostBytes (hostPut a bs s) b n = hostBytes s b n := by
  unfold hostBytes cellsGet hostPut
  refine List.map_congr_left fun i hi => ?_
  have := List.mem_range.mp hi
  exact cellGet_cellsSet_other bs s.host.cells a (b + i) (by omega)

/-- A write goes out unless its stream is Insecure, and then waits (R501). -/
theorem hostWrite_sent {a : Nat} {s : State} (bs : List Byte) (h : insecureAt s a = false) : hostWrite a bs s = hostPut a bs s := by
  simp [hostWrite, h, hostPut]

theorem hostWrite_held {a : Nat} {s : State} (bs : List Byte) (h : insecureAt s a = true) :
    hostWrite a bs s = holdReq (.write a bs) s := by
  simp [hostWrite, h, holdReq]

theorem hostBytes_hostWrite_same {a : Nat} (bs : List Byte) {s : State} (h : insecureAt s a = false) :
    hostBytes (hostWrite a bs s) a bs.length = bs := by
  rw [hostWrite_sent bs h, hostBytes_hostPut_same]

theorem hostBytes_hostWrite_other {a b n : Nat} {bs : List Byte} {s : State} (h : b + n ≤ a ∨ a + bs.length ≤ b) :
    hostBytes (hostWrite a bs s) b n = hostBytes s b n := by
  cases hi : insecureAt s a
  · rw [hostWrite_sent bs hi, hostBytes_hostPut_other h]
  · rw [hostWrite_held bs hi]; rfl

@[simp] theorem statusRecord_length (a b c d e : Nat) : (statusRecord a b c d e).length = 64 := by simp [statusRecord]

@[simp] theorem completionBytes_length (a b c d e f g h : Nat) : (completionBytes a b c d e f g h).length = 32 := by
  simp [completionBytes]

end Sys2Proof.Machine
end

