-- ==== Sys2Proof/Laws/Units.lean ====
section
/-! SUPPORT. What one change of a link, a stack, a register or the free counter does to the reads of it and of the others. -/
namespace Sys2Proof.Machine

theorem getD_modify_same {α : Type} (l : List α) (i : Nat) (f : α → α) (d : α) (h : i < l.length) :
    (l.modify i f).getD i d = f (l.getD i d) := by
  simp [List.getD_eq_getElem?_getD, h]

theorem getD_modify_other {α : Type} (l : List α) (i j : Nat) (f : α → α) (d : α) (h : j ≠ i) :
    (l.modify i f).getD j d = l.getD j d := by
  simp [List.getD_eq_getElem?_getD, h.symm]

theorem linkOf_updLink_same (l : Nat) (g : Link → Link) (s : State) (h : l < s.links.length) :
    linkOf (updLink l g s) l = g (linkOf s l) := getD_modify_same _ _ _ _ h

theorem linkOf_updLink_other (l j : Nat) (g : Link → Link) (s : State) (h : j ≠ l) :
    linkOf (updLink l g s) j = linkOf s j := getD_modify_other _ _ _ _ _ h

@[simp] theorem updLink_length (l : Nat) (g : Link → Link) (s : State) : (updLink l g s).links.length = s.links.length := by
  simp [updLink]

theorem stackAt_updStack_same (n : Nat) (g : StackState → StackState) (s : State) (h : n < s.mem.stackStates.length) :
    stackAt (updStack n g s) n = g (stackAt s n) := getD_modify_same _ _ _ _ h

theorem stackAt_updStack_other (n j : Nat) (g : StackState → StackState) (s : State) (h : j ≠ n) :
    stackAt (updStack n g s) j = stackAt s j := getD_modify_other _ _ _ _ _ h

@[simp] theorem stackAt_bump (g i c n : Nat) (s : State) (j : Nat) : stackAt (bump g i c n s) j = stackAt s j := rfl
@[simp] theorem linkOf_bump (g i c n : Nat) (s : State) (j : Nat) : linkOf (bump g i c n s) j = linkOf s j := rfl
@[simp] theorem linkOf_lcount (l i n : Nat) (s : State) (j : Nat) : linkOf (lcount l i n s) j = linkOf s j := rfl
@[simp] theorem linkOf_emit (o : Out) (s : State) (j : Nat) : linkOf (emit o s) j = linkOf s j := rfl

/-- A free natural number taken moves the free counter and nothing else. -/
theorem takeNat_snd (n : Nat) (s : State) : (takeNat n s).2 = { s with free := (takeNat n s).2.free } := by
  simp [takeNat]

/-- Landing a copy settles commands and contexts, and touches no engine. -/
@[simp] theorem settlePins_eng (s : State) : (settlePins s).eng = s.eng := by
  unfold settlePins
  generalize s.cmds = l
  induction l generalizing s with
  | nil => rfl
  | cons c l ih =>
    rw [List.foldl_cons, ih]
    split
    · split
      · split <;> simp
      · rfl
    · rfl

@[simp] theorem landCopy_eng (ctx q cmd : Nat) (s : State) : (landCopy ctx q cmd s).eng = s.eng := by simp [landCopy]

end Sys2Proof.Machine
end

