-- ==== Sys2Proof/Laws/Tiles.lean ====
section
/-! SUPPORT. Memory, the fabric and error records touch no engine; what setting a task, a fetch and an advance leave of a task;
a KV command with its pool. -/
namespace Sys2Proof.Machine

theorem foldl_eng {α : Type} (f : State → α → State) (l : List α) (s : State) (h : ∀ s x, (f s x).eng = s.eng) :
    (l.foldl f s).eng = s.eng := by
  induction l generalizing s with
  | nil => rfl
  | cons x l ih => rw [List.foldl_cons, ih, h]

/-! ### Memory -/

@[simp] theorem t1Put_eng (a : Nat) (g : Granule) (s : State) : (t1Put a g s).eng = s.eng := by
  unfold t1Put; dsimp only; split <;> simp

@[simp] theorem writeBack_eng (l : CacheLine) (s : State) : (writeBack l s).eng = s.eng :=
  foldl_eng _ _ _ (fun s i => by split <;> simp)

@[simp] theorem touchLine_eng (a : Nat) (s : State) : (touchLine a s).eng = s.eng := by
  unfold touchLine; dsimp only
  split
  · simp
  · rw [bump_eng]; dsimp only; split <;> simp

@[simp] theorem loadGran_eng (a : Nat) (s : State) : (loadGran a s).2.eng = s.eng := by
  unfold loadGran
  split
  · simp
  · rfl
  · split <;> simp
  · split
    · dsimp only; split <;> simp
    · simp

@[simp] theorem loadGrans_eng (n a : Nat) (s : State) : (loadGrans n a s).2.eng = s.eng := by
  induction n generalizing a s with
  | zero => rfl
  | succ n ih => simp [loadGrans, ih]

@[simp] theorem loadBytes_eng (a n : Nat) (s : State) : (loadBytes a n s).2.2.eng = s.eng := by simp [loadBytes]

@[simp] theorem storeGran_eng (a : Nat) (g : Granule) (s : State) : (storeGran a g s).eng = s.eng := by
  unfold storeGran
  split
  · simp
  · rfl
  · split <;> simp
  · split
    · exact touchLine_eng a s
    · simp

/-! ### What a store to a shared granule sends -/

@[simp] theorem lcount_eng (l i n : Nat) (s : State) : (lcount l i n s).eng = s.eng := rfl

@[simp] theorem putFlit_eng (l t q : Nat) (p : List Byte) (s : State) : (putFlit l t q p s).eng = s.eng := by
  unfold putFlit; dsimp only; split <;> simp

@[simp] theorem sendPiece_eng (l i : Nat) (s : State) : (sendPiece l i s).eng = s.eng := by
  unfold sendPiece; dsimp only; split <;> simp

@[simp] theorem drainSome_eng (n l : Nat) (s : State) : (drainSome n l s).eng = s.eng := by
  induction n generalizing s with
  | zero => rfl
  | succ n ih => unfold drainSome; split <;> simp [ih]

@[simp] theorem sendBytes_eng (l v : Nat) (g a : Bool) (b : List Byte) (s : State) : (sendBytes l v g a b s).eng = s.eng := by
  unfold sendBytes; dsimp only; split <;> simp [drainWaiting]

@[simp] theorem sendPacket_eng (l : Nat) (p : Packet) (s : State) : (sendPacket l p s).eng = s.eng := by
  simp [sendPacket, pcount, tcount, apply_ite State.eng]

@[simp] theorem sendRouted_eng (p : Packet) (a : Bool) (s : State) : (sendRouted p a s).2.eng = s.eng := by
  unfold sendRouted; dsimp only; split <;> simp

@[simp] theorem markUnreachable_eng (d : Nat) (s : State) : (markUnreachable d s).eng = s.eng := by
  unfold markUnreachable; split <;> rfl

@[simp] theorem launchRequest_eng (r : Request) (s : State) : (launchRequest r s).eng = s.eng := by
  unfold launchRequest
  simp only [apply_ite State.eng, markUnreachable_eng, sendRouted_eng, updCtx_eng, ite_self]

@[simp] theorem issue_eng (o : Owner) (u : ReqUse) (p : Packet) (s : State) : (issue o u p s).eng = s.eng := by
  unfold issue; dsimp only; split <;> simp

@[simp] theorem startRecall_eng (a : Nat) (s : State) : (startRecall a s).eng = s.eng := by
  unfold startRecall
  split
  · split
    · rfl
    · dsimp only; rw [foldl_eng _ _ _ (fun s x => issue_eng _ _ _ s)]; simp [updDir]
  · rfl

@[simp] theorem wantRecall_eng (a : Nat) (s : State) : (wantRecall a s).eng = s.eng := by
  unfold wantRecall
  split
  · split
    · rfl
    · split <;> simp [updDir]
  · rfl

@[simp] theorem putGran_eng (a : Nat) (g : Granule) (s : State) : (putGran a g s).eng = s.eng := by
  unfold putGran; split <;> simp [updDir]

@[simp] theorem putGrans_eng (a : Nat) (gs : List Granule) (s : State) : (putGrans a gs s).eng = s.eng := by
  induction gs generalizing a s with
  | nil => rfl
  | cons g gs ih => simp [putGrans, ih]

/-! ### Memory errors -/

@[simp] theorem noteWeightPoison_eng (a : Nat) (s : State) : (noteWeightPoison a s).eng = s.eng :=
  foldl_eng _ _ _ (fun s c => foldl_eng _ _ _ (fun s l => by dsimp only; split <;> simp))

@[simp] theorem channelExhausted_eng (c : Nat) (s : State) : (channelExhausted c s).eng = s.eng := by
  unfold channelExhausted
  simp only [apply_ite State.eng, recordErr_eng, bump_eng, updStack_eng, ite_self]

@[simp] theorem applyMemErr_eng (s : State) (e : MemErr) : (applyMemErr s e).eng = s.eng := by
  unfold applyMemErr; dsimp only
  split <;> simp [countCorrected, emptyHot]

@[simp] theorem keepGrans_eng (gs : List (Nat × Granule)) (s : State) : (keepGrans gs s).eng = s.eng :=
  foldl_eng _ _ _ (fun _ _ => rfl)

@[simp] theorem memErrs_eng (es : List MemErr) (s : State) : (es.foldl applyMemErr s).eng = s.eng :=
  foldl_eng _ _ _ applyMemErr_eng

/-! ### Rows -/

@[simp] theorem localPut_eng (e : Engine) (u i : Nat) (g : Granule) (s : State) : (localPut e u i g s).eng = s.eng := rfl

@[simp] theorem localPuts_eng (e : Engine) (u i : Nat) (gs : List Granule) (s : State) : (localPuts e u i gs s).eng = s.eng := by
  induction gs generalizing i s with
  | nil => rfl
  | cons g gs ih => simp [localPuts, ih]

@[simp] theorem loadRows_eng (t : Task) (r : Run) (b : List Byte) (n i : Nat) (c : Counts) (s : State) :
    (loadRows t r b n i c s).2.eng = s.eng := by
  induction n generalizing i c s with
  | zero => rfl
  | succ n ih => unfold loadRows; dsimp only; split <;> simp [ih]

@[simp] theorem storeRows_eng (t : Task) (r : Run) (b : List Byte) (n i k : Nat) (s : State) :
    (storeRows t r b n i k s).2.eng = s.eng := by
  induction n generalizing i k s with
  | zero => rfl
  | succ n ih => unfold storeRows; dsimp only; simp [ih]

theorem foldl_pair_eng {α β : Type} (f : β × State → α → β × State) (l : List α) (a : β × State)
    (h : ∀ a x, (f a x).2.eng = a.2.eng) : (l.foldl f a).2.eng = a.2.eng := by
  induction l generalizing a with
  | nil => rfl
  | cons x l ih => rw [List.foldl_cons, ih, h]

@[simp] theorem fetchTile_eng (r : Run) (n : Nat) (b : List Byte) (s : State) : (fetchTile r n b s).2.eng = s.eng :=
  foldl_pair_eng _ _ _ (fun a _ => by simp)

@[simp] theorem takeTile_eng (t : Task) (r : Run) (b : List Byte) (s : State) : (takeTile t r b s).2.eng = s.eng := by
  unfold takeTile
  split
  · rfl
  · split
    · split <;> simp
    · simp

@[simp] theorem noteFormat_eng (e : Engine) (q f k a : Nat) (gs : List Granule) (s : State) :
    (noteFormat e q f k a gs s).eng = s.eng := foldl_eng _ _ _ (fun s b => by dsimp only; split <;> simp)

@[simp] theorem noteFormats_eng (t : Task) (r : Run) (b : List Byte) (k : Tile) (n : Nat) (s : State) :
    (noteFormats t r b k n s).eng = s.eng := by
  unfold noteFormats; dsimp only
  rw [foldl_eng _ _ _ (fun s i => noteFormat_eng _ _ _ _ _ _ s)]
  split
  · rfl
  · exact foldl_eng _ _ _ (fun s c => noteFormat_eng _ _ _ _ _ _ s)

@[simp] theorem mmaRow_eng (t : Task) (b : List Byte) (f : Nat) (k : Tile) (i : Nat) (s : State) : (mmaRow t b f k i s).eng = s.eng :=
  foldl_eng _ _ _ (fun _ _ => rfl)

@[simp] theorem mmaRows_eng (t : Task) (b : List Byte) (f : Nat) (k : Tile) (l : List Nat) (s : State) :
    (l.foldl (fun s i => mmaRow t b f k i s) s).eng = s.eng := foldl_eng _ _ _ (fun s _ => mmaRow_eng _ _ _ _ _ s)

@[simp] theorem clearLocal_eng (e : Engine) (u : Nat) (s : State) : (clearLocal e u s).eng = s.eng := rfl

@[simp] theorem vopRow_eng (t : Task) (b : List Byte) (i : Nat) (s : State) : (vopRow t b i s).eng = s.eng := by
  unfold vopRow; dsimp only
  split
  · rfl
  · exact foldl_eng _ _ _ (fun _ _ => rfl)

/-- A KV command at work with a pool does its effect. -/
theorem withPool_some {q op : Nat} {s : State} {x : Queue} {c : Cmd} {p : Pool} (k : Queue → Cmd → Pool → State → State)
    (h : workHead s .te q op = some (x, c)) (h1 : poolOf s x.ctx = some p) : withPool q op s k = .next (k x c p s) := by
  simp only [withPool, h, h1]

/-! ### Tasks -/

theorem taskAt_congr {s z : State} (h : z.eng = s.eng) (e : Engine) (u : Nat) : taskAt z e u = taskAt s e u := by
  simp [taskAt, h]

/-- The task of a unit is on it. -/
theorem taskAt_on {s : State} {e : Engine} {u : Nat} {t : Task} (h : taskAt s e u = some t) : t.engine = e ∧ t.unit = u := by
  simpa using List.find?_some h

theorem taskAt_setTask {s : State} {e : Engine} {u : Nat} {t : Task} (t' : Task) (h : taskAt s e u = some t)
    (he : t'.engine = e) (hu : t'.unit = u) : taskAt (setTask t' s) e u = some t' := by
  subst he hu
  unfold taskAt setTask at *
  dsimp only
  generalize s.eng.tasks = l at *
  induction l with
  | nil => simp at h
  | cons x l ih =>
    rw [List.map_cons, List.find?_cons]
    rw [List.find?_cons] at h
    cases hx : (x.engine == t'.engine && x.unit == t'.unit) with
    | true => simp
    | false => simp only [hx, Bool.false_eq_true, if_false] at h ⊢; exact ih h

theorem taskAt_dropTask (s : State) (e : Engine) (u : Nat) : taskAt (dropTask e u s) e u = none := by
  simp only [taskAt, dropTask, List.find?_eq_none, List.mem_filter]
  intro t ⟨_, h⟩
  simp only [Bool.not_eq_true', Bool.eq_false_iff] at h
  exact h

/-- Filling the instruction buffer touches nothing else of a task, and no engine. -/
theorem fetchCode_spec (t : Task) (r : Run) (s : State) :
    (fetchCode t r s).2.eng = s.eng ∧ ∃ c, (fetchCode t r s).1 = { t with code := c } := by
  have h : ∀ (f : Task × State → Nat → Task × State) (l : List Nat) (a : Task × State),
      (∀ a i, (f a i).2.eng = a.2.eng ∧ ∃ c, (f a i).1 = { a.1 with code := c }) →
      (l.foldl f a).2.eng = a.2.eng ∧ ∃ c, (l.foldl f a).1 = { a.1 with code := c } := by
    intro f l a hf
    induction l generalizing a with
    | nil => exact ⟨rfl, a.1.code, rfl⟩
    | cons i l ih =>
      obtain ⟨h1, c, h2⟩ := hf a i
      obtain ⟨h3, d, h4⟩ := ih (f a i)
      exact ⟨h3.trans h1, d, by rw [List.foldl_cons, h4, h2]⟩
  exact h _ _ (t, s) (fun a i => ⟨loadBytes_eng _ _ _, _, rfl⟩)

/-- Fetching weights ahead changes only the bank not in use of the task, and no engine. -/
theorem fetchAhead_spec (t : Task) (r : Run) (s : State) :
    (fetchAhead t r s).2.eng = s.eng ∧ ∃ a, (fetchAhead t r s).1 = { t with ahead := a } := by
  unfold fetchAhead
  split
  · exact ⟨rfl, t.ahead, rfl⟩
  · split
    · exact ⟨rfl, t.ahead, rfl⟩
    · exact ⟨by simp, _, rfl⟩

/-- After an instruction the next one is due, and only the buffer and the bank not in use have changed beside. -/
theorem taskAt_advance {s : State} {t0 t : Task} {r : Run} (h : taskAt s t0.engine t0.unit = some t) (hr : t.run = some r) :
    ∃ a c, taskAt (advance t0 s) t0.engine t0.unit = some { t with pc := t.pc + 1, ahead := a, code := c } := by
  obtain ⟨he, hu⟩ := taskAt_on h
  obtain ⟨h1, a, h2⟩ := fetchAhead_spec t r s
  obtain ⟨h3, c, h4⟩ := fetchCode_spec { t with pc := t.pc + 1, ahead := a, code := t.code.drop 1 } r (fetchAhead t r s).2
  refine ⟨a, c, ?_⟩
  have h5 := taskAt_congr (h3.trans h1) t0.engine t0.unit
  rw [h] at h5
  unfold advance
  rw [h]
  dsimp only
  split
  · rename_i h6; simp [hr] at h6
  rename_i r' h6
  obtain rfl : r = r' := by simpa [hr] using h6
  rw [h2]
  dsimp only
  rw [taskAt_setTask _ h5 (by rw [h4]; exact he) (by rw [h4]; exact hu), h4]

/-- A run that begins is at its first instruction, with empty banks and sums of zero. -/
theorem taskAt_beginRun {s : State} {e : Engine} {u : Nat} {t t0 : Task} (r : Run) (n : Nat) (h : taskAt s e u = some t0)
    (he : t.engine = e) (hu : t.unit = u) :
    ∃ c, taskAt (beginRun t r n s) e u = some { t with
      run := some r, pc := 0, code := c, rung := n, clip := 0, zeroBlocks := 0, edge := 0, failed := false, tile := none
      refetched := none, ahead := none, stores := [] } := by
  unfold beginRun
  generalize ht : ({ t with run := some r, pc := 0, code := [], rung := n, clip := 0, zeroBlocks := 0, edge := 0, failed := false, tile := none
                            refetched := none, ahead := none, stores := [] } : Task) = t1
  obtain ⟨h1, c, h2⟩ := fetchCode_spec t1 r (clearLocal t.engine t.unit s)
  have h3 : taskAt (fetchCode t1 r (clearLocal t.engine t.unit s)).2 e u = some t0 := by
    rw [taskAt_congr h1]; exact h
  refine ⟨c, ?_⟩
  dsimp only
  rw [taskAt_setTask _ h3 (by rw [h2, ← ht]; exact he) (by rw [h2, ← ht]; exact hu), h2, ← ht]

@[simp] theorem finishStarts_eng (c p a b : Nat) (s : State) : (finishStarts c p a b s).eng = s.eng := by
  unfold finishStarts
  split
  · rfl
  · rw [foldl_eng _ _ _ (fun s o => finish_eng s _ _ _ _)]; rfl

@[simp] theorem settleDefect_tasks (e : Engine) (q : Nat) (s : State) : (settleDefect e q s).eng.tasks = s.eng.tasks := by
  unfold settleDefect
  split
  · rfl
  · split
    · rfl
    · split
      · rfl
      · simp [setQueue]

/-- A task that ends leaves its unit. -/
theorem taskAt_endTask (t : Task) (s : State) : taskAt (endTask t s) t.engine t.unit = none := by
  unfold endTask taskAt
  rw [settleDefect_tasks]
  exact taskAt_dropTask s t.engine t.unit

@[simp] theorem noteClass_eng (x : Queue) (g : List Byte) (s : State) : (noteClass x g s).eng = s.eng := rfl

@[simp] theorem countRun_eng (x : Queue) (r : Run) (s : State) : (countRun x r s).eng = s.eng := by
  unfold countRun; split <;> rfl

@[simp] theorem countRepeat_eng (x : Queue) (c n : Nat) (b : Bool) (s : State) : (countRepeat x c n b s).eng = s.eng := rfl

@[simp] theorem loadOpt_eng (a : Option Nat) (n : Nat) (s : State) : (loadOpt a n s).2.eng = s.eng := by
  unfold loadOpt; split <;> simp

theorem readRun_eng {t : Task} {s : State} {y : Run × State} (h : readRun t s = some y) : y.2.eng = s.eng := by
  unfold readRun at h
  split at h
  · cases h
  · cases h; simp

theorem cellGet_filter {m : List Host.Cell} {p : Host.Cell → Bool} {a : Nat} (h : ∀ b, p (a, b) = false) :
    cellGet (m.filter p) a = 0 := by
  unfold cellGet
  induction m with
  | nil => rfl
  | cons x m ih =>
    rw [List.filter_cons]
    split
    · rename_i hx
      obtain ⟨i, b⟩ := x
      by_cases hi : i = a
      · subst hi; simp [h] at hx
      · simp only [tabGet, hi, if_false]; exact ih
    · exact ih

/-- Local memory that has been cleared reads as zero (R151). -/
theorem localGet_clearLocal (e : Engine) (u i : Nat) (s : State) (h : i < localGrans e) :
    localGet (clearLocal e u s) e u i = zeroGran := by
  obtain ⟨k, hk⟩ : ∃ k, localBase e u = 64 * k := by
    refine ⟨localBase e u / 64, ?_⟩
    cases e <;> simp only [localBase] <;> omega
  unfold localGet rawGran clearLocal cellsGet zeroGran
  simp only [Granule.mk.injEq, List.eq_replicate_iff, List.length_map, List.length_range, List.mem_map, List.mem_range, true_and]
  constructor <;> rintro _ ⟨j, hj, rfl⟩ <;> refine cellGet_filter (fun b => ?_) <;> simp <;> omega

end Sys2Proof.Machine
end

