-- ==== Sys2Proof/Tests/Slice0.lean ====
section
/-! SUPPORT. The author's own tests: ill-formed operands refused, single commands on small states with results taken from the
manual's tables, and for each statement a witness that meets its hypotheses. -/
namespace Sys2Proof.Tests
open Sys2Proof Sys2Proof.Machine
set_option Elab.async false

/-! ### Small states -/

/-- A buffer of `n` bytes, zero but for fields (offset, width, value). -/
def buf (n : Nat) (fs : List (Nat × Nat × Nat)) : List Byte := fs.foldl (fun d f => splice d f.1 (natLe f.2.1 f.2.2)) (natLe n 0)

/-- A 64-byte descriptor or command: opcode and fields. -/
def desc (op : Nat) (fs : List (Nat × Nat × Nat)) : List Byte := buf 64 ((0, 1, op) :: fs)

/-- The module in a mode, all its domains released. -/
def at_ (m : Mode) : State := { State.reset with boot := { State.reset.boot with mode := m, released := 9, ready := true } }
def trd : State := at_ .trained
def rdy : State := at_ .ready

/-- A Fleos command through management port 0. -/
def fleos (order op : Nat) (fs : List (Nat × Nat × Nat)) : FleosCmd :=
  { src := .mgt 0, order, desc := desc op fs, phase := .waiting, time := 0, frame := 0, progress := 0, note := 0
    chain := { offers := 0, offered := false, ready := false, sent := 0, dead := none }, mgtTag := 0, carried := none, slipOut := none }

/-- A link stream that is Insecure (R501). -/
def insecure (s : State) : State :=
  { s with mgt := { s.mgt with ide := [{ number := 3, link := true, secure := false, key := [], blocks := [] }] } }

def give (c : FleosCmd) (s : State) : State := { s with cmds := s.cmds ++ [c] }

/-- `turnOf` and `runsNow`, as tests. -/
def turn (s : State) (c : FleosCmd) : Bool :=
  decide (cmdOf s c.src = some c) && decide (c.phase = .waiting) && !heldBack s c && !(s.pwr.stopped && !runsStopped c.opcode)
  && !hostWaits s c
def runs (s : State) (c : FleosCmd) : Bool := turn s c && (checkRun s c).isNone

theorem runs_runsNow {s : State} {c : FleosCmd} (h : runs s c = true) : runsNow s c.src c.opcode c := by
  simp only [runs, turn, Bool.and_eq_true, decide_eq_true_eq, Bool.not_eq_true', Option.isNone_iff_eq_none] at h
  obtain ⟨⟨⟨⟨⟨h1, h2⟩, h3⟩, h4⟩, h5⟩, h6⟩ := h
  exact ⟨⟨h1, rfl, h2, h3, h4, h5⟩, h6⟩

/-- A context with room, and what a test puts into it. -/
def room : Context := newContext (desc 1 [(20, 4, 16), (24, 2, 64), (26, 1, 8), (32, 8, 2 ^ 30)])
def withCtx (n : Nat) (k : Context) (s : State) : State := { s with contexts := tabSet s.contexts n k }

/-- A program of context 1. -/
def prog (frame : Bool) (qs : List (Engine × Nat)) : Program :=
  { queues := qs, eventBase := 0, eventCount := 8, fills := [], isFrame := frame, schedule := none, startCmds := [], stopCmds := []
    classes := [], rungs := [], replayRungs := [], marks := [] }

def queue (st head : Nat) (l : List (List Byte)) : Queue :=
  { state := st, ctx := 1, program := 0, list := l, template := l, head, cur := none, awaitTick := false, issued := 0, finished := 0
    worked := false, defect := none, rung := 0, stopReq := none, guardDone := false, repeated := none, late := false
    missed := false, reissue := [] }

/-- One queue, of program 0 in context 1. -/
def qState (frame : Bool) (e : Engine) (x : Queue) (s : State) : State :=
  { withCtx 1 { room with programs := [(0, prog frame [(e, 0)])] } s with
    eng := { queues := [(queueKey e 0, x)], tasks := [], fenced := [], held := [], events := [] } }

/-- A queue that runs its head command, whose task has been issued. -/
def works (e : Engine) (c : List Byte) (s : State) : State := qState false e { queue 3 0 [c] with cur := some c, issued := 1 } s

def poke (a : Nat) (bs : List Byte) (s : State) : State := { s with mem := { s.mem with cells := cellsSet s.mem.cells a bs } }
def hostPoke (a : Nat) (bs : List Byte) (s : State) : State := { s with host := { s.host with cells := cellsSet s.host.cells a bs } }

/-! ### Ill-formed operands (WellFormed) -/

def msg0 : HerdMsg :=
  { type := 1, version := 1, srcDev := 3, epoch := 1, originTs := 0, correction := 0, seq := 1, body := List.replicate 40 0 }
def pkt0 : Packet :=
  { op := 1, pflags := 0, srcDev := 3, dstDev := 0, ctx := 1, len := 1, seq := 1, epoch := 0, tag := 0, addr := 0, aux := 0
    status := 0, operand := 0, granules := [], control := [] }
/-- Bytes 1 to 3 of a management message, TAG 9 (Table 23-13). -/
def head0 : MgtHead := { reserved := 0, tag := 9 }
def rep0 : LinkReport := { link := 5, block := buf 16 [(0, 1, 1), (2, 1, 4), (4, 4, 9)], lanes := 15, lrev := false }

/-! For each check of WellFormed a term that breaks it. -/

def illFormedA : List Instr :=
  [.ctxCreate (.ring 17 0 0), .ctxCreate (.ring 0 512 0), .ctxCreate (.ring 0 0 (2 ^ 32)), .fence (.mgt 2),
   .memTest (.mgt 0) [{ addr := 0, pass := 0, uncorrectable := false, byteIndex := 72, found := 0, mismatches := 1 }],
   .pieceNotice (.mgt 2) 0 false, .descriptorIntake [{ addr := 2 ^ 64, bytes := [0], poison := false }],
   .completionRecord 17 0, .completionRecord 0 512, .doorbellRead 17 [], .ringNudge 0 4096 4 [], .ringNudge 0 0 4097 [],
   .ringNudge 17 0 4 []]

def illFormedB : List Instr :=
  [.ringCtrl 0 (natLe 9 0) [], .ringCtrl 17 [] [], .resetWalk 17, .functionLevelReset 17, .msixUnmask 0 64, .msixUnmask 17 0,
   .vfEnable true 17, .nop .pe 64, .stepPrep 64, .copy 64, .get 64, .fillGroupWrite 16 0 0, .fillGroupWrite 0 64 0,
   .fillGroupWrite 0 0 4096, .tileRun .pe 276480, .tend .ge 32000, .vop .se 20, .load .te 36 [], .store .fe 8 []]

def illFormedC : List Instr :=
  [.kvSpill 16, .reloadDone 16, .replaceRewriteDone 16, .kvSpillDone 16 0 0, .kvReturnDone 16 0 0, .scheduleIssue 16 0 0,
   .scheduleIssue 0 64 0, .loadReq { pkt0 with op := 256 }, .loadReq { pkt0 with granules := [{ payload := [], tags := [] }] },
   .retxTimeout 16384 0, .sync { msg0 with version := 256 }, .join { msg0 with body := [] }, .refresh 20 0 0 true,
   .refresh 0 64 0 true, .refresh 0 0 64 true, .stackTempReading 20 [1], .stackTempReading 0 [], .stackThrottleFall 20]

def illFormedD : List Instr :=
  [.meshFlitReceive 400 [] 0 [], .meshFlitReceive 0 [] 0 [], .storeScrub [] [.weightBank .se 0], .flitReceive 64 (natLe 256 0) (some []), .flitReceive 0 [] none, .nak 64 0, .nak 0 4096,
   .replayTimeout 64, .linkDown 64, .laneLockLoss 64 none [0, 0, 0, 0], .laneLockLoss 0 none [],
   .degradeMessage 64 0 0, .degradeMessage 0 4 0, .degradeMessage 0 0 4096, .retrainComplete 64 0, .retrainComplete 0 4096,
   .linkRetrainAttempt 64 none, .identityBlock { rep0 with link := 64 }, .identityBlock { rep0 with block := [] },
   .identityBlock { rep0 with lanes := 16 }]

def illFormedE : List Instr :=
  [.vrAlert 64, .vrAlertClear 64, .dieTempReading [], .moduleReset 5,
   .romChecks State.reset.boot.straps State.reset.boot.straps true [],
   .trainingComplete { arrayBad := false, badCores := [(.pe, 276480)], badChannels := [], spares := [], links := [] },
   .trainingComplete { arrayBad := false, badCores := [], badChannels := [640], spares := [], links := [] },
   .descriptor 2 head0 (natLe 64 0), .descriptor 0 { head0 with tag := 65536 } (natLe 64 0), .descriptor 0 head0 [],
   .fetch 2 head0 0 1, .mgtState 0 { head0 with reserved := 256 }, .debugChallenge 2 head0 0, .setEndpointId 0 256, .setEndpointId 2 8, .getEndpointId 2, .dynamicAddressAssignment 0 128]

def illFormedF : List Instr :=
  [.ideKm 256 false { key := [], blocks := [] }, .ideKm 0 true { key := [], blocks := [(0, 0)] }, .ideIntegrityFailure 256, .dbgReset (natLe 9 0), .mgtCtrl (natLe 9 0), .registerWrite 17 0 [],
   .registerWrite 0 65536 [], .cableSupplyOverload 8, .cableSupplyRetry 8 true, .dropNotice 16384,
   .chainOfferReceive 16384 5 0 0 0, .chainOfferReceive 0 256 0 0 0, .kvHandover 16384 0 0 0 0 [],
   .kvHandover 0 0 0 0 0 [[{ payload := [], tags := [] }]], .configurationRequest 17 false 0 0,
   .configurationRequest 0 false 4096 0, .configurationRequest 0 false 0 (2 ^ 32)]

theorem test_ill_formed_refused : (illFormedA.all (fun i => !i.wf) && illFormedB.all (fun i => !i.wf) && illFormedC.all (fun i => !i.wf) && illFormedD.all (fun i => !i.wf) && illFormedE.all (fun i => !i.wf) && illFormedF.all (fun i => !i.wf)) = true := by decide +kernel

theorem test_well_formed : Instr.wf (.loadReq pkt0) = true ∧ Instr.wf (.sync msg0) = true ∧ Instr.wf (.identityBlock rep0) = true := by
  decide +kernel

/-- No word spells a command. -/
theorem test_no_word (n w : Nat) : decodeTableWord n w = none ∧ State.reset.withFetchWord n w = State.reset := ⟨rfl, rfl⟩

/-! ### Witnesses: herd time -/

def herd (g : Herd → Herd) (s : State) : State := updHerd g s
/-- A follower of device 3 in READY, one frame open, locked, with one delay sample. -/
def follower : State := herd (fun h => { h with
  heard := true, masterDev := 3, epoch := 1, locked := true, samples := [0], inFrame := true, frame := 4, tickAt := 2000000, time := 2100000 }) rdy
def master : State := herd (fun h => { h with isMaster := true, masterDev := 0, epoch := 1, inFrame := true, frame := 4, tickAt := 2000000, time := 2100000 }) rdy
def deputy : State := herd (fun h => { h with isDeputy := true, deputyDev := 0 }) follower
def asked (k : Nat) : SlipRecord := { frame := k, s := 0, dev := 3, cause := 1, engine := 0, queue := 0 }

theorem witness_HerdMessageDiscarded : powerRuns rdy = true ∧ rdy.boot.mode ≠ .off ∧ bodyClean { msg0 with body := natLe 40 (2 ^ 319) } = false
    ∧ ({ msg0 with epoch := 0 } : HerdMsg).epoch < follower.herd.epoch ∧ seqTyped 1 = true
    ∧ (((receive 1 msg0 follower).2.herd.seqIn.find? (fun e => e.1 == (1, msg0.srcDev, msg0.epoch))).map (·.2) = some msg0.seq) := by
  decide +kernel

theorem witness_SyncRow : (receive 1 msg0 master).1 = true ∧ (receive 1 msg0 master).2.herd.isMaster = true
    ∧ (receive 1 { msg0 with srcDev := 4 } follower).1 = true ∧ (receive 1 { msg0 with srcDev := 4 } follower).2.herd.masterDev ≠ 4
    ∧ (servo (msgSent msg0) (time256 follower) follower).1.isSome = true
    ∧ (servo (msgSent { msg0 with originTs := 2100000 }) (time256 follower) follower).1 = none := by
  decide +kernel

theorem witness_DelayRows : (receive 2 { msg0 with type := 2 } follower).1 = true ∧ (receive 3 { msg0 with type := 3 } follower).1 = true
    ∧ tabGet follower.herd.delayOut 3 = none
    ∧ tabGet (herd (fun h => { h with delayOut := [(3, (0, 0, 0, 0))] }) follower).herd.delayOut 3 = some (0, 0, 0, 0)
    ∧ msgField msg0 36 4 = 0 ∧ follower.herd.masterDev = 3 ∧ follower.herd.isMaster = false ∧ master.herd.isMaster = true := by
  decide +kernel

theorem witness_SlipRows : (receive 4 { msg0 with type := 4 } master).1 = true ∧ (receive 4 { msg0 with type := 4 } follower).1 = true
    ∧ follower.herd.isDeputy = false ∧ (receive 5 { msg0 with type := 5 } follower).1 = true
    ∧ msgField { msg0 with body := buf 40 [(8, 8, 1)] } 32 8 = follower.herd.s + 1
    ∧ (receive 5 { msg0 with type := 5, epoch := 2 } follower).1 = true ∧ (2 : Nat) ≠ follower.herd.epoch
    ∧ windowDecided master.herd (nextTick master) 0 = none ∧ windowRecords master.herd (nextTick master) 0 = []
    ∧ windowRecords (herd (fun h => { h with records := [asked (nextTick master)] }) master).herd (nextTick master) 0 ≠ []
    ∧ slipsOf master.herd (nextTick master) < master.herd.slipMax
    ∧ slipsOf (herd (fun h => { h with slipRun := (nextTick master, 4) }) master).herd (nextTick master) = master.herd.slipMax
    ∧ (windowDecided (herd (fun h => { h with decided := [(nextTick master, 0, false)] }) master).herd (nextTick master) 0).isSome = true
    ∧ inHerd deputy = true ∧ deputy.herd.isDeputy = true
    ∧ (let s := herd (fun h => { h with records := [asked (nextTick deputy)] }) deputy
       let k := nextTick s
       let y := decideWindow k (advanceTo (tickTime s.herd k - guardFor s.herd k) s)
       let z := advanceTo (tickTime y.herd k - guardFor y.herd k + backupNs y) y
       windowRecords z.herd k z.herd.s ≠ [] ∧ slipsOf z.herd k < z.herd.slipMax)
    ∧ (let s := deputy
       let k := nextTick s
       let y := decideWindow k (advanceTo (tickTime s.herd k - guardFor s.herd k) s)
       windowRecords (advanceTo (tickTime y.herd k - guardFor y.herd k + backupNs y) y).herd k y.herd.s = []) := by
  decide +kernel

theorem witness_GuardRows : trd.boot.mode ≠ .ready ∧ rdy.herd.inFrame = false ∧ follower.boot.mode = .ready ∧ follower.herd.inFrame = true
    ∧ fbEn follower = true ∧ fbEn { follower with regs := { follower.regs with cfgGuard := 0 } } = false := by decide +kernel

theorem witness_MasterRows : inHerd master = true ∧ (receive 6 { msg0 with type := 6, epoch := 2 } follower).1 = true
    ∧ (receive 6 { msg0 with type := 6 } follower).1 = true ∧ follower.herd.masterDev ≠ devOf follower
    ∧ (receive 7 { msg0 with type := 7 } follower).1 = true ∧ follower.herd.k0 < msgField { msg0 with body := natLe 40 1 } 24 8
    ∧ msgField msg0 24 8 ≤ follower.herd.k0 ∧ inHerd deputy = true ∧ follower.boot.mode = .ready
    ∧ (masterUnreachable deputy || beforeTick (missedBy deputy) deputy) = true
    ∧ (let s := herd (fun h => { h with lastOrigin := 2 ^ 40 }) deputy
       let s := updLink 0 (fun k => { k with state := 2, peerKind := 2, peerId := 3 }) s
       (masterUnreachable s || beforeTick (missedBy s) s) = false)
    ∧ beforeTick (holdoverEnd (herd (fun h => { h with lastT2 := 0 }) deputy)) deputy = false
    ∧ (let s := herd (fun h => { h with lastT2 := 256 * 0 }) (herd (fun h => { h with tickAt := 2 ^ 40, period := 2 ^ 40 }) deputy)
       s.herd.isMaster = false ∧ beforeTick (holdoverEnd s) s = true) := by
  decide +kernel

/-- A candidate that has asked to join. -/
def candidate : State := herd (fun h => { h with
  masterDev := 3, epoch := 1, locked := true, heard := true, joinSent := some 0, joinCmd := some 7 }) (at_ .herd)

theorem witness_JoinRows : (receive 8 { msg0 with type := 8 } follower).1 = true ∧ (receive 8 { msg0 with type := 8 } master).1 = true
    ∧ (receive 8 { msg0 with type := 8, epoch := 0 } master).1 = true ∧ (0 : Nat) < master.herd.epoch
    ∧ master.herd.candidates.any (fun c => c.1 == 3) = false
    ∧ (herd (fun h => { h with candidates := [(3, [])] }) master).herd.candidates.any (fun c => c.1 == 3) = true
    ∧ (receive 9 { msg0 with type := 9 } candidate).1 = true ∧ candidate.herd.joinSent ≠ none ∧ candidate.herd.admitted = false
    ∧ msgField { msg0 with body := natLe 40 1 } 24 1 = 1 ∧ msgField { msg0 with body := natLe 40 2 } 24 1 = 2
    ∧ msgField { msg0 with body := natLe 40 3 } 24 1 = 3 ∧ candidate.herd.rejoining = false
    ∧ (herd (fun h => { h with rejoining := true }) candidate).herd.rejoining = true ∧ candidate.herd.joinCmd.isSome = true
    ∧ ({ State.reset.boot.straps with bell := 1 } : Straps).bell = 1
    ∧ (herd (fun h => { h with joinCmd := some 7 }) (at_ .herd)).herd.heard = false := by
  decide +kernel

theorem witness_TickRow : trd.boot.mode ≠ .ready ∧ candidate.boot.mode = .herd ∧ candidate.herd.heard = true
    ∧ (decideWindow (nextTick master) (advanceTo (tickTime master.herd (nextTick master) - guardFor master.herd (nextTick master)) master)).herd.s
        = master.herd.s
    ∧ follower.boot.mode = .ready ∧ follower.herd.diverged = false
    ∧ (let m := herd (fun h => { h with records := [asked (nextTick master)] }) master
       (decideWindow (nextTick m) (advanceTo (tickTime m.herd (nextTick m) - guardFor m.herd (nextTick m)) m)).herd.s ≠ m.herd.s) := by
  decide +kernel

/-- HERD_JOIN in TRAINED, HERD_LEAVE and FRAME_POLICY in READY. -/
def joinC : FleosCmd := fleos 0 0x11 [(32, 4, 592)]
/-- A plan of one module, this one, as bellwether; its link table expects nothing. -/
def plan1 : List Byte := buf 592 [(0, 2, 1), (4, 4, 1), (10, 2, 0xFFFF), (64 + 3, 1, 1), (64 + 8, 8, 80)]
def planned : State := hostPoke 0 plan1 trd

theorem witness_HerdCommands : runs (give joinC planned) joinC = true ∧ planned.boot.straps.linksplit ≠ 6
    ∧ (let s := { planned with boot := { planned.boot with straps := { planned.boot.straps with linksplit := 6 } } }
       runs (give joinC s) joinC = true)
    ∧ turn (give joinC trd) joinC = true ∧ worstDefect (planDefects trd (natLe 592 0)) ≠ none
    ∧ hostBytes trd 0 592 = natLe 592 0
    ∧ (let s := { planned with host := { planned.host with poisoned := [7] } }
       runs (give joinC s) joinC = true ∧ hostBad s 0 592 = true)
    ∧ worstDefect (planDefects planned (hostBytes planned 0 592)) = none
    ∧ planDiffs (give joinC planned) (readPlan planned (hostBytes planned 0 592)) ≠ []
    ∧ hostBad trd 0 592 = false
    ∧ runs (give (fleos 0 0x12 []) rdy) (fleos 0 0x12 []) = true ∧ frameRuns rdy = false
    ∧ frameRuns (qState true .se (queue 2 0 [desc 0 []]) rdy) = true
    ∧ runs (give (fleos 0 0x12 [(17, 1, 1)]) rdy) (fleos 0 0x12 [(17, 1, 1)]) = true ∧ anyRunning (requestAll rdy) = false
    ∧ anyRunning (requestAll (qState true .se (queue 3 0 [desc 0x30 []]) rdy)) = true
    ∧ runs (give (fleos 0 0x13 []) rdy) (fleos 0 0x13 []) = true ∧ rdy.herd.isMaster = false ∧ master.herd.isMaster = true
    ∧ runs (give (fleos 0 0x13 []) master) (fleos 0 0x13 []) = true
    ∧ (let s := { planned with boot := { planned.boot with straps := { planned.boot.straps with bell := 1 } } }
       planDiffs s (readPlan s (hostBytes s 0 592)) = []) := by
  decide +kernel

/-! ### Witnesses: host rings -/

/-- A completion ring (type 2), or a submission ring (type 1) of 64 slots, open. -/
def ringOf (type pair base status : Nat) : Ring :=
  { type, log2 := 6, pair, vector := 3, irqEn := true, base, status, modCount := 4, modUs := 10, phase := 1, accepted := 0
    completed := 0, resets := 0, hostIndex := 0, unsignalled := 1, reopen := true }
/-- The PF with submission ring 0 and completion ring 1 open, enabled. -/
def ringed : State := updFn 0 (fun f => { f with
  enable := true, dbBase := 0x10000, dirBase := 0x20000
  rings := [(0, { ringOf 1 1 0x100000 0x200000 with hostIndex := 1 }), (1, ringOf 2 0 0x110000 0)] }) trd
/-- A command of ring 0. -/
def ringCmd (order : Nat) (p : CmdPhase) : FleosCmd := { fleos order 0x1A [] with src := .ring 0 0 0, phase := p }
/-- A directory entry (R64): type, log2, pair, base, status. -/
def entryOf (t log2 pair status : Nat) : List Byte := buf 64 [(0, 1, t), (1, 1, log2), (2, 2, pair), (8, 8, 0x100000), (16, 8, status)]

theorem witness_DoorbellRows : portUp trd = true ∧ fnUp trd 0 = true ∧ readsOnTicks trd = false ∧ readsOnTicks rdy = true
    ∧ portUp State.reset = false := by decide +kernel

theorem witness_DoorbellRecord : 0 < ringed.fns.length ∧ (fnOf ringed 0).walkFailed.contains 0 = false ∧ hostBad ringed 0x10000 8 = false
    ∧ bellClean (2 ^ 63 + 1) = true ∧ bellOpen (2 ^ 63 + 64) = true ∧ bellClean (2 ^ 62) = false ∧ bellClean (2 ^ 32) = false
    ∧ hostUnread ringed 0x10000 8 = false
    ∧ (let s := updFn 0 (fun f => { f with rings := tabUpd f.rings 0 (fun r => { r with phase := 2 }) }) ringed
       (ringAt s 0 0).map (·.phase) = some 2)
    ∧ bellFits (ringOf 1 1 0 0) 65 = false ∧ bellFits (ringOf 1 1 0 0) 64 = true
    ∧ doorbell (hostPoke 0x10000 (natLe 8 (2 ^ 63 + 64)) ringed) 0 0 = 2 ^ 63 + 64
    ∧ diff32 64 0 ≤ 2 ^ 6 ∧ tabGet (fnOf ringed 0).ignored 0 = none
    ∧ tabGet (fnOf (updFn 0 (fun f => { f with ignored := [(0, 5)] }) ringed) 0).ignored 0 = some 5 := by decide +kernel

theorem witness_IntakeRow : intakeNext trd = none ∧ (intakeNext ringed) = some (0, 0, 1)
    ∧ (ringAt (acceptMany 0 0 1 ringed) 0 0).map (fun r => (r.type, insecureAt (acceptMany 0 0 1 ringed) r.status)) = some (1, false) := by decide +kernel

theorem witness_RingOpening : entryReason (entryOf 0 6 0 64) = 1 ∧ entryReason (entryOf 1 5 0 64) = 2 ∧ entryReason (entryOf 1 17 0 64) = 2
    ∧ entryReason (entryOf 1 6 0 0) = 3 ∧ entryReason (entryOf 1 6 1 64) = 0 ∧ entryReason (entryOf 2 16 0 0) = 0
    ∧ entryReason (entryOf 3 6 0 64) = 0 ∧ ringAt trd 0 1 = none ∧ (eventRing (fnOf trd 0)).isSome = false
    ∧ (eventRing (fnOf (updFn 0 (fun f => { f with rings := [(5, ringOf 3 0 0 64)] }) trd) 0)).isSome = true
    ∧ (ringAt ringed 0 1).map (fun c => (c.type, c.phase, c.log2, c.pair, c.accepted)) = some (2, 1, 6, 0, 0)
    ∧ hostUnread ringed 0x20000 64 = false ∧ firstRead ringed 0 1 = true ∧ firstRead (updFn 0 (fun f => { f with seen := [1] }) ringed) 0 1 = false
    ∧ statusLive ringed (entryOf 1 6 0 64) = false
    ∧ statusLive (hostPoke 64 (buf 64 [(8, 1, 1)]) ringed) (entryOf 3 6 0 64) = true := by decide +kernel

theorem witness_RecordRow : portUp ringed = true ∧ (ringAt ringed 0 0).map (fun r => (r.type, r.pair)) = some (1, 1)
    ∧ (ringAt ringed 0 1).isSome = true ∧ cmdOf (give (ringCmd 1 .waiting) ringed) (.ring 0 0 0) = some (ringCmd 1 .waiting)
    ∧ (ringCmd 1 .waiting).isOpen = true ∧ (ringCmd 1 (.done 0 0 0)).phase = .done 0 0 0
    ∧ (0x110000 : Nat) + 32 ≤ 0x200000 ∧ insecureAt ringed 0x110000 = false := by decide +kernel

theorem witness_Interrupts : (ringAt ringed 0 1).map (fun r => (r.irqEn, r.modUs, r.unsignalled)) = some (true, 10, 1)
    ∧ (msixOf (fnOf ringed 0) 3).masked = true ∧ fnUp ringed 0 = true
    ∧ (msixOf (fnOf (updFn 0 (fun f => { f with msix := [(3, { addr := 0, data := 0, masked := false, pendingBit := false })] }) ringed) 0)
        3).masked = false
    ∧ insecureAt ringed (msixOf (fnOf ringed 0) 3).addr = false ∧ insecureAt (insecure ringed) (msixOf (fnOf ringed 0) 3).addr = true := by
  decide +kernel

/-- Rings 0 and 2 in recovery. -/
def walked (ns : List Nat) : State := updFn 0 (fun f => { f with
  enable := true, walking := true, rings := ns.map (fun n => (n, { ringOf 1 9 0x100000 0x200000 with phase := 3 })) }) trd

theorem witness_ResetRows : (fnOf (walked []) 0).enable = true ∧ walksLeft (walked []) 0 = [] ∧ walksLeft (walked [0]) 0 = [0]
    ∧ walksLeft (walked [0, 2]) 0 = [0, 2]
    ∧ (let s := { trd with boot := { trd.boot with vfEnable := true, numVfs := 2 } }
       fnUp s 2 = true ∧ portUp s = true ∧ (flrContexts s 2).all (ctxStopped ((flrContexts s 2).foldl (fun s c => stopCtx c s) s)) = true)
    ∧ trd.boot.vfEnable = false := by decide +kernel

/-! ### Witnesses: queues -/

def seQ (st : Nat) (c : List Byte) : State := qState false .se (queue st 0 [c]) rdy
def seCmd (op : Nat) (fs : List (Nat × Nat × Nat)) : List Byte := desc op ([(2, 1, 2), (3, 1, 1)] ++ fs)
/-- The start check of the head of SE queue 0. -/
def checkOf (s : State) : Option Start := (waitingHead s .se 0).map (fun y => startCheck s .se y.1 y.2)

theorem witness_CommonOpcodes : checkOf (seQ 2 (seCmd 0 [])) = some .go ∧ checkOf (seQ 2 (seCmd 1 [])) = some .go
    ∧ checkOf (seQ 2 (seCmd 2 [])) = some .go ∧ checkOf (seQ 2 (seCmd 0 [(1, 1, 2), (26, 2, 1)])) = some .notYet := by decide +kernel

theorem witness_QueueEngine :
    checkOf (seQ 2 (seCmd 0x30 [(20, 4, 1024), (40, 8, 12288)])) = some .go
    ∧ (let s := seQ 3 (seCmd 0x31 [(20, 4, 1)])
       (queueAt s .se 0).map hasTask = some true ∧ issueUnit s .se 0 (seCmd 0x31 [(20, 4, 1)]) = some 0 ∧ lowerFirst s .se 0 = false ∧ (queueAt s .se 0).map (fun x => x.state) = some 3
       ∧ (queueAt s .se 0).map (fun x => workDone s .se 0 x (seCmd 0x31 [(20, 4, 1)])) = some false)
    ∧ (let s := qState false .pe (queue 3 0 [desc 0x10 [(3, 1, 1), (20, 4, 1)]]) rdy
       issueUnit s .pe 0 (desc 0x10 [(3, 1, 1), (20, 4, 1)]) = some 0
       ∧ issueUnit { s with eng := { s.eng with fenced := [(.pe, 0)] } } .pe 0 (desc 0x10 [(3, 1, 1), (16, 4, 1), (20, 4, 1)]) = none)
    ∧ (let c := seCmd 0x31 [(20, 4, 1)]
       let s := qState false .se { queue 3 0 [c] with issued := 1, worked := true } rdy
       (queueAt s .se 0).map (fun x => workDone s .se 0 x c) = some true) := by decide +kernel

/-! ### Witnesses: Fleos commands -/

def inCtx (s : State) : State := withCtx 1 room s
def run1 (op : Nat) (fs : List (Nat × Nat × Nat)) : FleosCmd := fleos 0 op ((16, 1, 1) :: fs)

theorem witness_ChecksDecide : fleosRow (.ctxCreate (.mgt 0)) = some (1, .mgt 0)
    ∧ checkRun (give joinC (hostPoke 0 plan1 rdy)) joinC = some (4, 0xB00, 0)
    ∧ heldBack (give { ringCmd 1 .waiting with src := .ring 0 0 1 } (give (ringCmd 0 .waiting) trd))
        { ringCmd 1 .waiting with src := .ring 0 0 1 } = true
    ∧ (let c := run1 0xC [(32, 4, 1)]
       cmdOf (insecure (give c trd)) c.src = some c ∧ hostWaits (insecure (give c trd)) c = true)
    ∧ cmdOf (give (ringCmd 0 (.done 0 0 0)) trd) (.ring 0 0 0) = some (ringCmd 0 (.done 0 0 0)) := by decide +kernel

theorem witness_CommandCompletes : cmdNo (give (fleos 5 1 []) trd) 5 = some (fleos 5 1 []) ∧ (fleos 5 1 []).isOpen = true
    ∧ cmdNo (give (ringCmd 6 .running) trd) 6 = some (ringCmd 6 .running) ∧ (ringCmd 6 .running).isOpen = true := by decide +kernel

def ok (s : State) (c : FleosCmd) : Bool := runs (give c s) c

theorem witness_Contexts : ok trd (run1 1 []) = true ∧ ctxAt trd (run1 1 []).ctx = none ∧ quotasFit trd (run1 1 [(20, 4, 65536)]).desc = true
    ∧ quotasFit trd (run1 1 [(20, 4, 65537)]).desc = false ∧ (ctxAt (inCtx trd) (run1 1 []).ctx).isSome = true
    ∧ ok (inCtx trd) (run1 1 []) = true ∧ ok (inCtx trd) (run1 2 []) = true
    ∧ ctxStopped (stopCtx 1 (running (run1 2 []) (give (run1 2 []) (inCtx trd)))) 1 = true
    ∧ (let s := give (run1 2 []) (seQ 3 (seCmd 0x31 [(20, 4, 1)]))
       runs s (run1 2 []) = true ∧ ctxStopped (stopCtx 1 (running (run1 2 []) s)) 1 = false) := by decide +kernel

def region (a n : Nat) : Region := { kind := 1, addr := a, size := n, peerFirst := 0, peerLast := 0, live := true, leaving := false, unmap := none }
def mapped : State := withCtx 1 { room with regions := [(3, region 4096 4096)] } trd
def mapC (reg a n : Nat) : FleosCmd := run1 3 [(17, 1, 1), (18, 2, reg), (24, 8, a), (32, 8, n)]

theorem witness_Regions :
    ok mapped (mapC 4 8192 4096) = true ∧ mappedRegion (mapC 4 8192 4096).desc = { region 8192 4096 with live := false }
    ∧ regionClash mapped { room with regions := [(3, region 4096 4096)] } 3 (region 8192 64) = true
    ∧ regionClash mapped { room with regions := [(3, region 4096 4096)] } 4 (region 8192 4096) = false
    ∧ regionOver mapped { room with regions := [(3, region 4096 4096)] } (region 8192 4096) = false
    ∧ regionOver mapped { room with memQuota := 4096 } (region 8192 8192) = true
    ∧ ok mapped (run1 4 [(18, 2, 3)]) = true ∧ tabGet ({ room with regions := [] } : Context).regions 3 = none
    ∧ namesRegion mapped room (region 4096 4096) = false
    ∧ (let k : Context := { room with programs := [(0, prog false [(.se, 0)])] }
       namesRegion (seQ 1 (seCmd 0x30 [(20, 4, 1024), (40, 8, 4160)])) k (region 4096 4096) = true) := by decide +kernel

/-- SE queue 0 of program 0, READY to be started, holding, or running. -/
def loaded (st : Nat) : State := seQ st (seCmd 0 [])

theorem witness_Programs :
    (progAt (loaded 1) 1 0).map (fun p => (p.isFrame, (progQueues (loaded 1) p).all (fun q => q.state == 1 || q.state == 4), mayStart (loaded 1) (run1 8 []) p))
      = some (false, true, true)
    ∧ ok (loaded 1) (run1 8 []) = true ∧ ok (loaded 2) (run1 9 []) = true ∧ launchCome (loaded 2) (run1 9 []) = true
    ∧ ok (loaded 4) (run1 0x1B [(17, 1, 1)]) = true
    ∧ (let s := { loaded 4 with pwr := { rdy.pwr with stopped := true } }
       ok s (run1 0x1B []) = true ∧ s.boot.flowLow = false) := by decide +kernel

/-- An image of one list on SE queue 0 that holds an END. -/
def img : List Byte := buf 64 [(0, 2, 1), (2, 2, 1)] ++ buf 16 [(0, 1, 2), (4, 4, 128), (8, 4, 1)] ++ natLe 48 0 ++ seCmd 1 []
def loadC : FleosCmd := run1 7 [(18, 2, 0), (24, 8, 0), (32, 4, 192)]

theorem witness_Programs_load : (let s := hostPoke 0 img (inCtx rdy)
    ok s loadC = true ∧ hostBad s 0 192 = false ∧ freeEvents s (1, 0) 0 = some 0
    ∧ (match readImage s 1 (hostBytes s 0 192) with
       | .inr im => !loadClash s 1 0 room im && !loadOver 0 room im && im.events == 0
       | .inl _ => false) = true) := by decide +kernel

/-- Stream 0 of context 1, opened with a parameter block at 0. -/
def openC : FleosCmd := run1 0xA [(17, 1, 6), (24, 8, 0x1000), (32, 8, 0x2000), (48, 8, 0)]
def par : List Byte := buf 256 [(0, 2, 1)]
def stream0 : Stream := newStream openC 65536 (readParams par [])
def streamed (m : Mode) : State :=
  let s := inCtx (at_ m)
  { s with streams := [(0, stream0)], slotUses := [(0, 1)], boot := { s.boot with straps := { s.boot.straps with role := 3 } } }

theorem witness_StreamCommands :
    (let s := hostPoke 0 par (inCtx trd)
     ok s openC = true ∧ hostBad s 0 256 = false ∧ fieldAt (hostBytes s 0 256) 7 1 = 0 ∧ paramsDefect (hostBytes s 0 256) [] = none
     ∧ lowestFree (s.streams.map (·.1)) 65536 = some 0 ∧ (0 : Nat) < ((ctxAt s 1).map (·.streamQuota)).getD 0)
    ∧ ok (streamed .trained) (run1 0xB [(20, 4, 65536)]) = true ∧ openStream (streamed .trained) 1 65536 = some stream0
    ∧ stream0.closing = none ∧ promptsOpen (streamed .trained) 65536 0 = false
    ∧ ok (streamed .trained) (run1 0xE [(20, 4, 65536)]) = true ∧ ok (streamed .ready) (run1 0xE [(20, 4, 65536)]) = true
    ∧ openStream (streamed .ready) 1 65536 = some stream0
    ∧ ok (streamed .ready) (run1 0xC [(20, 4, 65536), (32, 4, 4194304)]) = true
    ∧ stream0.next + promptAhead (streamed .ready) 65536 0 + 4194304 ≤ 4194304
    ∧ (let c := run1 0xD [(20, 2, 1), (24, 8, 0)]
       let s := hostPoke 0 (natLe 4 65536) (streamed .ready)
       ok s c = true ∧ batchList s c = [65536] ∧ (openStream s 1 65536).isSome = true ∧ hostBad s 0 4 = false) := by decide +kernel

theorem witness_StreamCommands_quota : fieldAt openC.desc 16 1 = 1 ∧ hostBad trd 0 (4 * 4194304) = false := by
  refine ⟨by decide +kernel, ?_⟩
  simp [hostBad, trd, at_, State.reset]

theorem witness_PolicyCommands : ok (inCtx trd) (run1 0xF []) = true ∧ ok (inCtx trd) (run1 0x10 [(17, 1, 3)]) = true
    ∧ ok trd (run1 0x19 []) = true ∧ ok rdy (run1 0x19 []) = true ∧ launchCome (inCtx rdy) (run1 0x19 [(8, 8, 2 ^ 63)]) = false
    ∧ ok (inCtx rdy) (run1 0x19 [(8, 8, 2 ^ 63)]) = true
    ∧ ok (inCtx trd) (run1 0x1A []) = true ∧ ok (inCtx trd) (run1 0x1A [(17, 1, 2)]) = true ∧ (openEpochs room).length < 8
    ∧ (openEpochs { room with epochs := (List.range 7).map (fun i => ((i, 0), 0)) }).length = 7
    ∧ room.epochFails.find? (fenceCovers 0 0) = none := by decide +kernel

/-! ### Witnesses: tiles and engines -/

def tileOp (top : Nat) (fs : List (Nat × Nat × Nat)) : List Byte := buf 32 ((0, 1, top) :: fs)
/-- The next state of an outcome. -/
def nextOf (o : Host.Outcome State Fault Refusal) : State :=
  match o with
  | .next t => t
  | _ => State.reset
/-- One PE core with a task of a program at 0x8000 of one instruction and TEND, before its first instruction. -/
def tiled (i : List Byte) : State :=
  let c := desc 0x10 [(3, 1, 1), (20, 4, 1), (32, 8, 0x8000), (40, 8, 0x9000)]
  let s := qState false .pe { queue 3 0 [c] with cur := some c, issued := 1 } rdy
  poke 0x8000 (buf 64 [(0, 2, 1), (2, 2, 2)] ++ i ++ tileOp 1 [])
    { s with eng := { s.eng with tasks := [{ engine := .pe, unit := 7, queue := 0, index := 0, run := none, pc := 0, code := [], rung := 0
                                             clip := 0, zeroBlocks := 0, edge := 0, failed := false, repeats := 0, tile := none
                                             refetched := none, ahead := none, stores := [] }] } }
/-- The same after TILE_RUN. -/
def begun (i : List Byte) : State := nextOf (exec (.tileRun .pe 7) (tiled i))
def failing (s : State) : State := { s with eng := { s.eng with tasks := s.eng.tasks.map (fun t => { t with failed := true }) } }
/-- A failed run whose MMA is guarded by a descriptor of one rung and class 0 before the program. -/
def guarded : State := failing (nextOf (exec (.tileRun .pe 7)
  (poke (0x8000 - 64) (buf 64 [(0, 1, 1), (1, 1, 1)]) (tiled (tileOp 5 [(2, 1, 0x00), (3, 1, 5)])))))
def due (s : State) (top : Nat) (f : Task → Run → List Byte → Option Nat) : Option (Option Nat) :=
  (dueInstr s .pe 7 top).map (fun x => f x.1 x.2.1 x.2.2)

def loadI : List Byte := tileOp 2 [(2, 1, 0xAA), (3, 1, 4), (4, 2, 128), (6, 2, 1), (10, 2, 1), (14, 2, 1)]
def storeI : List Byte := tileOp 3 [(2, 1, 0xAA), (3, 1, 4), (4, 2, 1), (6, 2, 1), (10, 2, 1), (14, 2, 1)]
def vopI : List Byte := tileOp 4 [(1, 1, 1), (4, 2, 1), (6, 2, 1), (10, 2, 1), (12, 2, 2), (14, 2, 1), (16, 2, 1), (18, 2, 1)]
def mmaI : List Byte := tileOp 5 [(2, 1, 0xAA), (3, 1, 4), (4, 1, 128), (5, 1, 1), (6, 2, 1), (10, 2, 1), (12, 2, 200), (14, 2, 2)]

/-- Each clause: TILE_RUN on a clean header, TASK_REPEAT at rung 1, TEND, and one instruction of each kind without a defect. -/
theorem witness_TileInstructions :
    (let s := tiled loadI
     (taskAt s .pe 7).map (fun t => t.run.isNone) = some true ∧ (queueAt s .pe 0).isSome = true
     ∧ ((taskAt s .pe 7).bind (fun t => readRun t s)).map (fun y => (queueAt s .pe 0).map (fun x => headerDefect y.2 x y.1)) = some (some none))
    ∧ (taskAt guarded .pe 7).map (fun t => (t.failed, storesWait guarded t, t.run.bind (nextRung t))) = some (true, false, some 1)
    ∧ (queueAt guarded .pe 0).isSome = true
    ∧ (let s := begun (tileOp 1 [])
       (queueAt s .pe 0).isSome = true
       ∧ (taskAt s .pe 7).map (fun t => (t.run.map (fun r => decide (t.pc < r.len)), fieldAt (t.code.headD []) 0 1,
           leNat (slice (t.code.headD []) 1 31), storesWait s t, t.failed)) = some (some true, 1, 0, false, false))
    ∧ due (begun loadI) 2 (loadDefect (begun loadI)) = some none
    ∧ due (begun storeI) 3 (storeDefect (begun storeI)) = some none
    ∧ due (begun vopI) 4 (fun t _ b => vopDefect t b) = some none
    ∧ due (begun mmaI) 5 (mmaDefect (begun mmaI)) = some none := by decide +kernel

/-- The clauses of TileTasksComplete have the hypotheses of those of TileInstructions; here the tasks after one command. -/
theorem witness_TileTasksComplete :
    (taskAt (nextOf (exec (.taskRepeat .pe 7) guarded)) .pe 7).map (fun t => (t.rung, t.pc, t.repeats, t.failed)) = some (1, 0, 1, false)
    ∧ taskAt (nextOf (exec (.tend .pe 7) (begun (tileOp 1 [])))) .pe 7 = none
    ∧ [(Instr.load .pe 7 [], loadI), (.store .pe 7 [], storeI), (.vop .pe 7, vopI), (.mma .pe 7 0, mmaI)].all (fun y =>
        (taskAt (nextOf (exec y.1 (begun y.2))) .pe 7).map (fun t => t.pc) == some 1) = true := by decide +kernel

theorem witness_VectorFrame : due (begun vopI) 4 (fun t _ b => vopDefect t b) = some none := by decide +kernel

/-- A layer routing descriptor (Table 11-2) of one participant, this module, and two experts. -/
def lrd : List Byte := buf 512 [(0, 2, 1), (2, 1, 1), (4, 1, 1), (6, 1, 1), (7, 1, 10), (8, 2, 2), (12, 2, 1), (14, 2, 2), (20, 2, 1),
  (22, 2, 1), (24, 1, 10), (25, 1, 10), (32, 8, 0x10000), (40, 4, 1), (48, 8, 0x11000), (56, 8, 0x12000), (64, 8, 0x14000),
  (72, 8, 0x15000), (80, 8, 0x16000), (88, 8, 0x17000), (96, 8, 0x18000), (112, 8, 0x19000)]
def routing (op : Nat) (d : List Byte) : State := poke 0x3000 d (works .se (seCmd op [(20, 4, 1), (32, 8, 0x3000)]) rdy)
/-- The routing command runs and its descriptor is clean, poisoned or defective. -/
def routed (op : Nat) (s : State) : Option (Bool × Bool) :=
  (workHead s .se 0 op).map (fun y => ((loadBytes (Cmd.body y.2 32 8) 512 s).2.1, lrdOk (loadBytes (Cmd.body y.2 32 8) 512 s).2.2 (loadBytes (Cmd.body y.2 32 8) 512 s).1))
def batch1 : Batch := { streams := [65536], vector := 0, irqEn := false, fn := 0, gone := [] }

theorem witness_SelectEngineWork :
    (workHead (works .se (seCmd 0x30 [(20, 4, 1)]) rdy) .se 0 0x30).isSome = true
    ∧ (let s := works .se (seCmd 0x31 [(20, 4, 1), (34, 1, 1)]) rdy
       (workHead s .se 0 0x31).isSome = true
       ∧ (batchOf { s with contexts := [(1, { room with batches := [(0, batch1)] })] } 1 0).isSome = true)
    ∧ [0x20, 0x21, 0x22, 0x23, 0x24].all (fun op => (workHead (routing op lrd) .se 0 op).isSome) = true
    ∧ routed 0x20 (routing 0x20 lrd) = some (false, true)
    ∧ routed 0x20 (routing 0x20 (natLe 512 0)) = some (false, false)
    ∧ (let s := routing 0x20 lrd
       (routed 0x20 { s with mem := { s.mem with tags := cellsSet s.mem.tags (0x3000 / 8) (List.replicate 8 0xFF) } }).map (·.1)
         = some true) := by decide +kernel

def pool0 : HotPool :=
  { hotSlots := 2, partBytes := 0, imagePart := 0, woff := 0, coldBase := 0, hotBase := [], slots := [], pins := [], toEmpty := []
    lens := [1, 0], fetched := [], dropped := [], counts := [], rejected := [], frame := 4, landing := [] }
/-- Program 0 with a ROUTE_PLAN of groups 0 and 1, whose layer's result of frame 4 is there. -/
def filling : State :=
  let s := poke 0x3000 lrd (herd (fun h => { h with frame := 4 })
    (qState false .se (queue 2 0 [seCmd 0x21 [(20, 4, 1), (32, 8, 0x3000), (48, 2, 0), (50, 2, 2)]]) rdy))
  { s with contexts := tabUpd s.contexts 1 (fun k => { k with hotPools := [(0, pool0)] }) }

theorem witness_SelectEngineWork_fill : ((progAt filling 1 0).map (fun p => (groupLayer filling p 1, p.marks.contains 1))) = some (some 0, false)
    ∧ (ctxAt filling 1).bind (fun c => tabGet c.hotPools 0) = some pool0 ∧ pool0.frame = filling.herd.frame ∧ pool0.lens ≠ []
    ∧ (progAt filling 1 0).map (fun p => planRunning filling p 1) = some false := by
  decide +kernel

def teCmd (op : Nat) (fs : List (Nat × Nat × Nat)) : List Byte := desc op ([(2, 1, 3), (3, 1, 1), (20, 4, 1)] ++ fs)
def entry0 : SchedEntry :=
  { phase := 0, gen := false, srcRemote := false, srcTcf := false, freeWait := false, lead := 1, startOff := 0, src := 0, dst := 4096
    length := 1, readyEvent := 1, freeEvent := 0, freeCount := 0 }
def sched0 : Schedule := { period := 1, entries := [entry0], coreFirst := 0, coreCount := 0, k0 := some 0, issued := [], prime := false, held := [], filled := [] }
/-- Context 1 in an open frame 4 with a schedule of one entry. -/
def timed : State := withCtx 1 { room with programs := [(0, { prog true [] with schedule := some sched0 })] } master
def xfer0 (u : XferUse) : Xfer :=
  { id := 9, use := u, src := 0, dst := 4096, len := 1, srcTcf := false, round := 2, buf := [], silent := false, failed := false, gen := false
    late := false, here := true }
def withXfer (x : Xfer) (s : State) : State := { s with fab := { s.fab with xfers := [x] } }

theorem witness_TierEngineWork : (workHead (works .te (teCmd 0x10 []) rdy) .te 0 0x10).isSome = true
    ∧ (resolveAddr rdy true (5 * 2 ^ 42)).1 = true ∧ (resolveAddr rdy false 0).1 = false
    ∧ (workHead (works .te (teCmd 0x11 []) rdy) .te 0 0x11).isSome = true
    ∧ (let s := works .te (teCmd 0x12 [(32, 8, 0x3000)]) rdy
       (workHead s .te 0 0x12).map (fun y => (progAt s 1 0).map (fun p => (readSchedule s y.2 p).isSome)) = some (some false))
    ∧ (workHead (works .te (teCmd 0x12 [(40, 1, 2)]) rdy) .te 0 0x12).isSome = true
    ∧ timed.boot.mode = .ready ∧ timed.herd.inFrame = true ∧ timed.herd.diverged = false ∧ timed.pwr.stopped = false
    ∧ (timed.herd.frame + 1 - 0) % 1 = 0 ∧ (0, timed.herd.frame + 1) ∉ sched0.issued ∧ entry0.startOff < timed.herd.period
    ∧ ((progAt timed 1 0).map (progHolding timed)) = some false ∧ tickOf timed.herd timed.herd.frame ≤ timed.herd.time
    ∧ rewriting timed 1 0 64 = false
    ∧ (xferAt (withXfer (xfer0 (.sched 1 0 0 4)) timed) 9).isSome = true ∧ (xfer0 (.sched 1 0 0 4)).round = 2
    ∧ (xferAt (withXfer (xfer0 (.sched 1 0 0 3)) timed) 9).isSome = true ∧ (3 : Nat) < timed.herd.frame := by decide +kernel

/-- A schedule structure of one entry (Tables 12-4, 12-5) at 0x3000. -/
def schedBytes : List Byte := buf 64 [(0, 2, 1), (2, 2, 1), (4, 4, 1)] ++ buf 64 [(3, 1, 1), (8, 8, 0x100000), (16, 8, 0x110000), (24, 4, 64), (28, 2, 1)]

theorem witness_TierEngineWork_bind : (let s := poke 0x3000 schedBytes (works .te (teCmd 0x12 [(32, 8, 0x3000), (40, 1, 1)]) rdy)
    (workHead s .te 0 0x12).map (fun y => (progAt s 1 0).map (fun p => (readSchedule s y.2 p).isSome)) = some (some true)) := by
  decide +kernel

/-! ### Witnesses: KV pages -/

/-- A pool of one layer and one head of 32 numbers, one frame, at 0x50000; tables at 0x40000. -/
def poolBytes : List Byte := buf 224 ([(0, 2, 1), (2, 1, 2), (3, 1, 2), (4, 2, 1), (6, 1, 1), (8, 2, 32), (12, 4, 1), (16, 4, 2), (20, 4, 2),
  (24, 8, 0x40000), (32, 8, 7)] ++ (List.range 20).map (fun i => (64 + 8 * i, 8, 0x50000 + 2048 * i)))
def kvPool : Pool := readPool poolBytes
/-- SE and TE of context 1, its region, pool and one stream. -/
def kvState (s : State) : State :=
  { s with
    contexts := s.contexts.map (fun e => (e.1, { e.2 with pool := some { kvPool with usedFrames := [0] }, t2Size := 2 ^ 20, regions := [(0, region 0 (2 ^ 30))] }))
    streams := [(0, stream0)] }
def kvCtx (s : State) : State := kvState (inCtx s)
/-- Page 0 of directory slot 0 has a leaf entry. -/
def paged (v : Nat) (s : State) : State := poke 0x40000 (natLe 8 (2 ^ 63)) (poke 0x42000 (natLe 8 v) s)
/-- A step table of one padded row at 0x8000. -/
def table1 (s : State) : State := poke (0x8000 - 64) (natLe 4 1) (poke 0x8000 (buf 16 [(8, 4, 0xFFFFFFFF)]) s)

theorem witness_KvWork_pool : (let s := poke 0x3000 poolBytes (kvState (works .te (teCmd 0x40 [(32, 8, 0x3000)]) rdy))
    (workHead s .te 0 0x40).map (fun y => ((loadBytes (Cmd.body y.2 32 8) 224 s).2.1,
      poolOk (loadBytes (Cmd.body y.2 32 8) 224 s).2.2 1 (loadBytes (Cmd.body y.2 32 8) 224 s).1)) = some (false, true)) := by decide +kernel

theorem witness_KvWork_rows : (let s := table1 (kvState (works .te (teCmd 0x41 [(48, 8, 0x8000)]) rdy))
      (workHead s .te 0 0x41).isSome = true ∧ (poolOf s 1).isSome = true ∧ (tableRows s 0x8000).length = 1)
    ∧ (let s := table1 (kvState (works .te (teCmd 0x42 [(56, 8, 0x8000)]) rdy))
      (workHead s .te 0 0x42).isSome = true ∧ (poolOf s 1).isSome = true ∧ (slotRows (tableRows s 0x8000)).length = 1) := by
  decide +kernel

theorem witness_KvWork_spill : (kvCtx rdy).pwr.stopped = false ∧ ((ctxAt (kvCtx rdy) 1).map (fun c => (c.pool.map (fun p =>
      decide (maySpill c p = true ∧ c.highPct * p.frameCount < p.usedFrames.length * 100))))) = some (some true)
    ∧ (let s := paged 5 (withXfer (xfer0 (.spill 1 0 0 3)) (kvCtx rdy))
       (kvXfer s (spillOf 1 0 0)).map (fun x => (x.silent, x.failed, outstandingOf s (.xfer x.id))) = some (false, false, false)
       ∧ (pageAt kvPool 0 0 (dropXfer 9 s)).1 = .entry 0x42000 5)
    ∧ (let s := paged 6 (withXfer (xfer0 (.ret 1 0 0)) (kvCtx rdy))
       (kvXfer s (returnOf 1 0 0)).map (fun x => (x.round, x.silent, x.failed)) = some (2, false, false)
       ∧ (pageAt kvPool 0 0 s).1 = .entry 0x42000 6)
    ∧ (let buf := (List.range 20).flatMap (fun p => (List.range 32).map (fun i => (partKey p i, zeroGran)))
       let s := paged 6 (withXfer { xfer0 (.ret 1 0 0) with buf } (kvCtx rdy))
       (kvXfer s (returnOf 1 0 0)).map (fun x => (returnedParts 1 x (kvPool.partBytes / 64) (dropXfer 9 s)).1.any (fun gs => gs.any isPoison))
         = some false) := by
  decide +kernel

theorem witness_KvWork_handover : streamNo rdy 65536 = none
    ∧ (let s := kvState (inCtx rdy)
       (streamNo s 65536).map (fun x => (x.dirSlot, x.kvLen, x.fed, x.promptToken, x.ended)) = some (none, 0, none, none, false)
       ∧ (poolOf s 1).map (·.layoutId) = some 7 ∧ (storePages 1 0 [] s).1 = (.got 0, [])) := by decide +kernel

/-! ### Witnesses: weights -/

/-- A WEIGHT_LOAD or WEIGHT_REPLACE of one granule of layer 5 at 4096. -/
def wCmd (op source fwd : Nat) : FleosCmd :=
  run1 op [(17, 1, source), (18, 2, 5), (20, 2, if op = 6 then 1 else 0), (24, 8, if source = 2 then 3 * 2 ^ 42 else 0), (32, 8, 4096),
           (40, 8, 64), (48, 8, fwd)]
def wRegion : Region := { region 4096 4096 with kind := 2, peerFirst := 0, peerLast := 16383 }
def ext0 : Extent := { dest := 4096, length := 64, originKind := 1, originAddr := 0, state := 0, writeGen := 0 }
def weighted (ls : Sparse (List Extent)) (s : State) : State := withCtx 1 { room with regions := [(0, wRegion)], layers := ls } s
/-- The command runs, its chain as given. -/
def wRunning (c : FleosCmd) (k : Chain) (n : Nat) (s : State) : State × FleosCmd :=
  let c := { c with phase := .running, chain := k, progress := n }
  (give c s, c)
def chain (offers : Nat) : Chain := { Chain.none with offers }

theorem witness_WeightLoads :
    (let c := wCmd 5 1 0
     let s := give c (weighted [] trd)
     runs s c = true ∧ loadRefusal (running c s) c = none
     ∧ (hostGrans (sendOffer c.order (running c s)) 0 1).findIdx? isPoison = none
     ∧ (let s := { s with host := { s.host with poisoned := [7] } }
        (hostGrans (sendOffer c.order (running c s)) 0 1).findIdx? isPoison = some 0))
    ∧ (let c := wCmd 5 2 0
       let s := give c (weighted [] trd)
       runs s c = true ∧ loadRefusal (running c s) c = none ∧ c.wSource = 2)
    ∧ (let c := wCmd 5 1 0
       let s := give c (weighted [(4, [ext0])] trd)
       runs s c = true ∧ loadRefusal (running c s) c = some (4, 0xA00))
    ∧ (let c := wCmd 6 1 0
       let s := give c (weighted [(5, [ext0])] rdy)
       runs s c = true ∧ replaceRefusal (running c s) c = none
       ∧ cmdOf (running c s) c.src = some { c with phase := .running } ∧ c.opcode = 6)
    ∧ (let c := wCmd 6 1 0
       let s := give c (weighted [] rdy)
       runs s c = true ∧ replaceRefusal (running c s) c = some (3, 0x512)) := by decide +kernel

theorem witness_ChainRows :
    (let y := wRunning (wCmd 5 1 (4 * 2 ^ 42)) (chain 1) 0 (weighted [] trd)
     weightCmd y.1 (.mgt 0) = some y.2 ∧ y.2.wForward ≠ 0 ∧ y.2.chain.ready = false ∧ y.2.chain.offers = 1)
    ∧ (let y := wRunning (wCmd 5 1 (4 * 2 ^ 42)) (chain 100) 0 (weighted [] trd)
       weightCmd y.1 (.mgt 0) = some y.2 ∧ y.2.chain.offers = 100 ∧ y.2.opcode = 5)
    ∧ (let y := wRunning (wCmd 6 1 (4 * 2 ^ 42)) (chain 100) 1 (weighted [] trd)
       weightCmd y.1 (.mgt 0) = some y.2 ∧ y.2.opcode = 6 ∧ y.2.wPieces ≤ y.2.progress)
    ∧ (let y := wRunning (wCmd 5 2 0) { Chain.none with offered := true } 0 (weighted [] trd)
       weightCmd y.1 (.mgt 0) = some y.2 ∧ y.2.wSource = 2 ∧ y.2.chain.offered = true ∧ 0 < y.2.wPieces ∧ y.2.progress = 0
       ∧ y.1.cmds.find? (fun k => k.opcode == 5 && k.phase == .running && k.wSource == 2 && k.wSrc == y.2.wSrc && k.wDest == y.2.wDest
           && k.wLen == y.2.wLen) = some y.2)
    ∧ (let y := wRunning { wCmd 5 2 0 with desc := splice (wCmd 5 2 0).desc 40 (natLe 8 (2 ^ 22)) } { Chain.none with offered := true } 0
         (weighted [] trd)
       weightCmd y.1 (.mgt 0) = some y.2 ∧ 1 < y.2.wPieces ∧ 1 ≠ y.2.progress)
    ∧ (let y := wRunning (wCmd 6 2 0) { Chain.none with offered := true } 0 (weighted [] trd)
       weightCmd y.1 (.mgt 0) = some y.2 ∧ y.2.wSource = 2 ∧ y.2.progress < y.2.wPieces ∧ y.2.opcode = 6)
    ∧ devField (3 * 2 ^ 42) = 3 := by decide +kernel

/-- Layer 5 in reload, its origin in host memory. -/
def reloads : State := weighted [(5, [{ ext0 with state := 1 }])] trd
/-- A WEIGHT_REPLACE under its barrier, rewritten. -/
def replaced (k : Chain) (fwd : Nat) : State :=
  let c := { wCmd 6 1 fwd with phase := .running, note := 1, progress := 1, chain := k }
  give c (withCtx 1 { room with regions := [(0, wRegion)], layers := [(5, [ext0])]
                                barrier := some { cmd := some 0, layers := [5], held := true, from_ := 0, finished := false } } trd)
def rewritten (k : Chain) (fwd : Nat) : Option (Bool × Bool × Option Nat) :=
  let s := replaced k fwd
  (((ctxAt s 1).bind (·.barrier)).bind (·.cmd)).bind (fun o =>
    let z := forwardPieces o (rewriteNow o s)
    (cmdNo z o).bind (fun c => if c.phase = .running ∧ c.note = 1 ∧ c.wPieces ≤ c.progress then
      some (offersSpent c, forwardEnded z c, c.chain.dead) else none))

theorem witness_ReloadRows : trd.pwr.stopped = false ∧ ({ trd.pwr with stopped := true } : Power).stopped = true
    ∧ (ctxAt reloads 1).map reloading = some true ∧ reloads.fab.xfers = []
    ∧ (endReload 1 5 { ext0 with state := 1 } reloads).1 = true
    ∧ (endReload 1 5 { ext0 with state := 1 } { reloads with host := { reloads.host with poisoned := [0] } }).1 = false
    ∧ rewritten (chain 101) (4 * 2 ^ 42) = some (true, false, none) ∧ rewritten Chain.none 0 = some (false, true, none)
    ∧ rewritten { chain 1 with ready := true, sent := 1, dead := some 4 } (4 * 2 ^ 42) = some (false, true, some 4) := by
  decide +kernel

/-! ### Witnesses: stacks and mesh -/

def stacked (g : StackState → StackState) : State := updStack 2 g trd

theorem witness_RefreshLimit : stackRuns State.reset 2 = false ∧ stackRuns trd 2 = true ∧ 2 < trd.mem.stackStates.length
    ∧ tabNat (stackAt trd 2).postponed (5 * 64 + 3) < 8
    ∧ tabNat (stackAt (stacked (fun k => { k with postponed := [(5 * 64 + 3, 8)] })) 2).postponed (5 * 64 + 3) = 8 := by decide +kernel

theorem witness_StackRows : stackRuns State.reset 2 = false ∧ stackRuns trd 2 = true ∧ thermCrit trd ≤ [105].foldl max 0
    ∧ (stackAt trd 2).critical = false ∧ [104].foldl max 0 < thermCrit trd
    ∧ stackRuns (stacked (fun k => { k with cool := true })) 2 = true ∧ (stackAt (stacked (fun k => { k with cool := true })) 2).cool = true
    ∧ (stackAt trd 2).cool = false ∧ State.reset.boot.released < 5 ∧ 5 ≤ trd.boot.released ∧ trd.pwr.stopped = false
    ∧ placeOf 0x20000000000 = .store := by decide +kernel

theorem witness_MeshFlits : edgeEnds 0 = none ∧ edgeEnds 7 = some ((0, 1), 3, (0, 2)) ∧ crosses trd 41 4096 = true ∧ crosses trd 7 4096 = false ∧ 5 ≤ trd.boot.released ∧ crc16 [0x31] = 0x2672 ∧ tabNat trd.mem.meshTries 7 = 0
    ∧ (let s := { trd with mem := { trd.mem with meshTries := [(7, 3)] } }
       tabNat s.mem.meshTries 7 = 3 ∧ s.herd.time - s.herd.time < 1000000)
    ∧ (let s := { trd with mem := { trd.mem with meshTries := [(7, 3)], meshFails := [(7, (15, 0))] } }
       tabGet s.mem.meshFails 7 = some (15, 0) ∧ s.herd.time - 0 < 1000000
       ∧ 1000000 ≤ (herd (fun h => { h with time := 1000000 }) s).herd.time - 0) := by decide +kernel

/-! ### Witnesses: links -/

/-- Link 5 in a state of Table 15-10, four lanes. -/
def linked (st : Nat) : State := updLink 5 (fun k => { k with state := st, lanes := 15, trainedWidth := 4 }) trd
/-- A flit with its CRC. -/
def flitOf (fs : List (Nat × Nat × Nat)) : List Byte :=
  let b := buf 252 fs
  b ++ natLe 4 (crc32c b)

def sent0 : SentFlit := { seq := 0, vc := 0, again := false, payload := [] }

theorem witness_FlitRows : (linkOf (linked 2) 5).state = 2 ∧ (linkOf (linked 4) 5).state = 4 ∧ flitGood (flitOf [(0, 1, 1)]) = true
    ∧ flitGood (buf 256 [(0, 1, 1)]) = false ∧ 5 < (linked 2).links.length ∧ fieldAt (flitOf [(0, 1, 1)]) 0 1 % 8 = 1
    ∧ bitOf (fieldAt (flitOf [(0, 1, 1)]) 3 2) 15 = false ∧ (linkOf (linked 2) 5).waiting = [] ∧ (linkOf (linked 2) 5).rxNext = 0
    ∧ fieldAt (flitOf [(0, 1, 1), (1, 2, 9)]) 1 2 = 9 ∧ flitGood (flitOf [(0, 1, 1), (1, 2, 9)]) = true
    ∧ (linkOf (updLink 5 (fun k => { k with replay := [sent0], nakSent := true }) (linked 2)) 5).replay ≠ []
    ∧ (linkOf (updLink 5 (fun k => { k with replay := [sent0], nakSent := true }) (linked 2)) 5).nakSent = true
    ∧ (linkOf (linked 2) 5).replay = [] := by decide +kernel

theorem witness_LinkHealth : (linkOf (linked 2) 5).state = 2 ∧ (linkOf (linked 2) 5).degrading = none ∧ bitOf 15 3 = true
    ∧ bitOf 15 4 = false ∧ replayLimit (linked 2) 5 = false
    ∧ replayLimit (updLink 5 (fun k => { k with replays := 1024, sameReplays := 16 }) (linked 2)) 5 = true
    ∧ laneCount 1 ≤ 1 ∧ 1 < laneCount (linkOf (linked 2) 5).lanes
    ∧ (linkOf (updLink 5 (fun k => { k with degrading := some 3 }) (linked 2)) 5).degrading = some 3
    ∧ (linkOf (linked 4) 5).state ≠ 2 ∧ 7 ≤ trd.boot.released ∧ 1 ∉ trd.boot.cablesOff
    ∧ 1 ∈ ({ trd.boot with cablesOff := [1] } : Boot).cablesOff := by decide +kernel

/-- What a link of LINKSPLIT 0 that is no fold link meets: another module's link 4 in hall-rack 0. -/
def split (n : Nat) (s : State) : State := { s with boot := { s.boot with straps := { s.boot.straps with linksplit := n } } }
def badRep : LinkReport := { rep0 with block := buf 16 [(0, 1, 3)] }

theorem witness_LinkIdentity : (linkOf (linked 2) rep0.link).state ≠ 1 ∧ (linkOf (linked 1) rep0.link).state = 1
    ∧ (split 6 (linked 1)).boot.straps.linksplit = 6 ∧ blockDefect (linked 1) 5 badRep.block = some 8 ∧ (linked 1).boot.straps.linksplit ≠ 6
    ∧ (List.range 64).any (fun l => blockDefect (linked 1) l (buf 16 [(0, 1, 2), (2, 1, l), (4, 4, 9)]) == none) = true
    ∧ (linkOf (linked 2) 5).state ≠ 4
    ∧ (linkOf (linked 4) 5).state = 4 ∧ 7 ≤ (linked 4).boot.released
    ∧ expectedPeer (linked 4) 5 ≠ some (1, 4, 9) := by decide +kernel

/-! ### Witnesses: the fabric -/

def feCmd (op : Nat) (fs : List (Nat × Nat × Nat)) : List Byte := desc op ([(2, 1, 4), (3, 1, 1), (20, 4, 1)] ++ fs)
def feHead (op : Nat) (s : State) : Bool := (workHead s .fe 0 op).isSome
def feWorks (op : Nat) (fs : List (Nat × Nat × Nat)) : State := works .fe (feCmd op fs) rdy
/-- A communication descriptor of two participants, this module and device 3 (Table 16-7). -/
def cdBytes : List Byte := buf 256 [(0, 2, 1), (2, 1, 2), (4, 2, 16384), (66, 2, 3)]

theorem witness_FabricCommands :
    feHead 0x10 (feWorks 0x10 [(40, 8, 4096), (48, 4, 1)]) = true ∧ devField 0 = devOf rdy
    ∧ feHead 0x10 (feWorks 0x10 [(32, 8, 3 * 2 ^ 42), (40, 8, 4096), (48, 4, 1)]) = true ∧ devField (3 * 2 ^ 42) ≠ devOf rdy
    ∧ feHead 0x11 (feWorks 0x11 [(32, 8, 3 * 2 ^ 42), (40, 8, 4096), (48, 4, 1)]) = true
    ∧ feHead 0x12 (feWorks 0x12 [(32, 8, 2 ^ 56)]) = true ∧ feHead 0x13 (feWorks 0x13 [(32, 2, 3), (36, 4, 1)]) = true
    ∧ (3 : Nat) ≠ devOf (feWorks 0x13 [])
    ∧ [1, 2, 3].all (fun a => feHead 0x14 (feWorks 0x14 [(32, 1, a), (36, 4, 1)])) = true
    ∧ (let s := feWorks 0x15 [(32, 8, 0x3000)]
       feHead 0x15 s = true ∧ (readCd s 0x3000).isSome = false ∧ (readCd (poke 0x3000 cdBytes s) 0x3000).isSome = true)
    ∧ (let s := poke 0x3000 lrd (feWorks 0x16 [(32, 8, 0x3000)])
       feHead 0x16 s = true ∧ (loadBytes 0x3000 512 s).2.1 = false ∧ lrdOk (loadBytes 0x3000 512 s).2.2 (loadBytes 0x3000 512 s).1 = true) := by
  decide +kernel

/-- A packet of an OP from device 3 for region 0 of context 1. -/
def pktOf (op : Nat) : Packet := { pkt0 with op, pflags := vcOf op, len := if op = 1 then 1 else 0, addr := 4096, aux := if op = 7 then 2 else 0 }
/-- Context 1 exports bytes 4,096 to 8,191 to every device; mailbox 2 has one slot there. -/
def exporting : State := withCtx 1 { room with
  regions := [(0, wRegion)]
  mailboxes := [(2, { program := 0, event := 0, slots := 1, ring := 4096, delivered := 0, released := 0 })] } rdy
/-- SEQ 1 of device 3 has been received. -/
def heard1 (s : State) : State := { s with fab := { s.fab with windows := [(3, { mark := 2, above := [], atomics := [], last := 0 })] } }
def served (s : State) : State := heardFrom 3 s

theorem witness_PacketDiscarded : packetClean { pkt0 with op := 0 } = false ∧ (pktOf 3).op ≠ 1 ∧ ({ pktOf 1 with dstDev := 3 } : Packet).dstDev ≠ devOf rdy := by
  decide +kernel

theorem witness_TargetRows :
    [1, 3, 5, 7].all (fun op => packetClean (pktOf op) && (pktOf op).dstDev == devOf exporting && !waitsHere (served exporting) (pktOf op)
      && !isDuplicate (served exporting) 3 1 && isDuplicate (served (heard1 exporting)) 3 1) = true
    ∧ bitOf (pktOf 1).aux 0 = false ∧ packetClean { pktOf 1 with aux := 1 } = true ∧ bitOf 1 0 = true
    ∧ targetStatus (served exporting) (pktOf 1) 4096 64 = none ∧ targetStatus (served exporting) (pktOf 1) 8192 64 = some 1
    ∧ (served exporting).fab.directory = [] ∧ targetStatus (served exporting) (pktOf 5) 4096 8 = none
    ∧ (mailboxAt (served exporting) 1 2).map (fun b => targetStatus (served exporting) (pktOf 7) (b.ring + b.delivered % b.slots * 576) 576)
      = some none := by decide +kernel

/-- Exchange instance 0 of KEY 16,384, this module participant 0, device 3 participant 1. -/
def ex0 : Exchange :=
  { ctx := 1, key := 16384, inst := 0, q := 0, own := 0, devs := [0, 3], sends := [(0, 0), (4096, 1)], recvs := [(0, 0), (4096, 1)]
    sending := [1], ended := [], acked := [], got := [], ends := [], skipped := [] }
def exchanging : State := { exporting with fab := { exporting.fab with exchanges := [ex0] } }
def exPkt (op : Nat) : Packet := { pktOf op with
  operand := exchangeWord 16384 0 1 0, len := if op = 10 then 1 else 0, granules := if op = 10 then [zeroGran] else [] }
def req0 (u : ReqUse) (op : Nat) : Request :=
  { pkt := { pkt0 with op, dstDev := 3, srcDev := 0 }, use := u, owner := .fleos, attempts := 1, alternate := false, busy := false, link := none, die := none }
def asking (r : Request) (s : State) : State := { s with fab := { s.fab with requests := [r] } }

theorem witness_ExchangePackets :
    [9, 10, 11, 12].all (fun op => packetClean (exPkt op) && (exPkt op).dstDev == devOf exchanging) = true
    ∧ exchangeBusy (served exchanging) = false ∧ waitsHere (served exchanging) (exPkt 10) = false
    ∧ targetStatus (served exchanging) (exPkt 10) 4096 64 = none ∧ isDuplicate (served exchanging) 3 1 = false ∧ staleInstance (served exchanging) (exPkt 9) = false
    ∧ exchangeAt (served exchanging) 1 (Packet.key (exPkt 9)) (Packet.inst (exPkt 9)) = some ex0
    ∧ exchangeAt (served exporting) 1 (Packet.key (exPkt 9)) (Packet.inst (exPkt 9)) = none ∧ staleInstance (served exporting) (exPkt 9) = false
    ∧ exporting.fab.readies.length < 4096 ∧ ex0.recvs.getD (Packet.srcIndex (exPkt 10)) (0, 0) = (4096, 1)
    ∧ (4096 : Nat) ≤ (exPkt 10).addr ∧ (exPkt 10).granules.length ≤ 1 - ((exPkt 10).addr - 4096) / 64
    ∧ isDuplicate (served (heard1 exchanging)) 3 1 = true
    ∧ requestFor (served (asking (req0 (.exchange 1 16384 0 1) 11) exchanging)) (exPkt 12) = some (req0 (.exchange 1 16384 0 1) 11) := by
  decide +kernel

theorem witness_ResponseRows :
    [2, 4, 6, 8].all (fun op => packetClean (pktOf op) && packetClean { pktOf op with status := 2 } && packetClean { pktOf op with status := 1 }
      && (pktOf op).dstDev == devOf rdy) = true
    ∧ requestFor (served rdy) (pktOf 2) = none ∧ requestFor (served (asking (req0 .write 3) rdy)) (pktOf 4) = some (req0 .write 3) := by
  decide +kernel

theorem witness_CoherenceRows : packetClean (pktOf 13) = true ∧ (pktOf 13).dstDev = devOf rdy ∧ packetClean (pktOf 14) = true
    ∧ requestFor (served rdy) (pktOf 14) = none ∧ requestFor (served (asking (req0 .write 13) rdy)) (pktOf 14) = some (req0 .write 13)
    ∧ rdy.fab.requests = [] ∧ (asking (req0 .write 3) rdy).fab.requests.find? (fun r => r.pkt.dstDev == 3 && r.pkt.seq == 1) = some (req0 .write 3)
    ∧ (req0 .write 3).attempts < 2 ∧ (2 : Nat) ≤ ({ req0 .write 3 with attempts := 2 } : Request).attempts
    ∧ noRoute (updLink 40 (fun k => { k with state := 2, peerKind := 2, peerPort := 40, peerId := 9 }) rdy) 3 4096 = false
    ∧ (req0 .write 3).attempts < retxMax rdy
    ∧ retxMax { rdy with regs := { rdy.regs with fabTransport := 0x00010114 } } ≤ (req0 .write 3).attempts := by decide +kernel

/-! ### Witnesses: power -/

theorem witness_DieFloor : powerRuns rdy = true ∧ ({ rdy.pwr with temps := [101] } : Power).temps ≠ [] ∧ dieThr rdy < 101
    ∧ 50 + dieHyst rdy < dieThr rdy ∧ ¬ dieThr rdy < 100 ∧ ¬ 100 + dieHyst rdy < dieThr rdy ∧ rdy.pwr.dieFloor ≤ 56 := by decide +kernel

theorem witness_PowerRows : powerRuns rdy = true ∧ powerRuns State.reset = false
    ∧ rdy.boot.mode ≠ .off ∧ 4400 < uvWarn rdy * 100 ∧ uvWarn rdy * 100 ≤ 6000 ∧ (uvWarn rdy + 1) * 100 < 6000
    ∧ 4400 ≤ (uvWarn rdy + 1) * 100 := by decide +kernel

theorem witness_ThermalRows : powerRuns rdy = true
    ∧ (let s := { at_ .rom with boot := { (at_ .rom).boot with hold := 8 } }
       powerRuns s = true ∧ s.boot.mode = .rom ∧ s.boot.hold = 8 ∧ [40].all (fun t => decide (t + 10 < dieThr s)) = true)
    ∧ rdy.boot.mode ≠ .rom
    ∧ (let s := { rdy with pwr := { rdy.pwr with thermalPending := true, temps := [115] } }
       powerRuns s = true ∧ s.pwr.thermalPending = true ∧ 115 ≤ s.pwr.temps.foldl max 0)
    ∧ rdy.pwr.thermalPending = false ∧ State.reset.boot.training = false ∧ (beginTraining State.reset).boot.training = true
    ∧ State.reset.boot.mode = .rom ∧ (at_ .off).boot.mode = .off ∧ rdy.pwr.stopped = false ∧ (flowStop rdy).pwr.stopped = true
    ∧ ({ State.reset.boot with hold := 9 } : Boot).hold = 9 := by decide +kernel

/-! ### Witnesses: reset and start-up -/

/-- Straps of a ring role of one module. -/
def straps0 : Straps := State.reset.boot.straps
def report0 : TrainReport := { arrayBad := false, badCores := [], badChannels := [], spares := [], links := [rep0] }
/-- ROM with every domain released, as the checks find it. -/
def checking : State := at_ .rom

theorem witness_InputRows : (7200 : Nat) < 7300 ∧ (4100 : Nat) ≤ 7200 ∧ (4100 : Nat) < 4200 ∧ (at_ .off).boot.mode = .off
    ∧ (at_ .off).boot.inputOn = true ∧ (powerOff rdy).boot.inputOn = false ∧ rdy.boot.mode ≠ .off ∧ rdy.boot.perstLow = false
    ∧ ({ rdy.boot with perstLow := true } : Boot).perstLow = true
    ∧ State.reset.boot.mode ≠ .off ∧ 2 ≤ State.reset.boot.released ∧ State.reset.boot.released < releaseLimit State.reset
    ∧ releaseLimit rdy ≤ rdy.boot.released := by decide +kernel

theorem witness_BootRows : checking.boot.mode = .rom ∧ checking.boot.released = 9 ∧ checking.boot.hold = 0 ∧ checking.boot.training = false
    ∧ romHold checking.fuse straps0 straps0 true romDigest = 0 ∧ romHold checking.fuse straps0 straps0 false romDigest = 1
    ∧ checking.boot.thermalHold = false ∧ ({ checking.boot with thermalHold := true } : Boot).thermalHold = true
    ∧ romHold checking.fuse straps0 straps0 true (natLe 48 0) = 2 ∧ romHold checking.fuse straps0 { straps0 with slot := 1 } true romDigest = 3
    ∧ straps0.bell ≠ 3 ∧ straps0.linksplit ≠ 7 ∧ bitOf checking.fuse.roleMask straps0.role = true
    ∧ bitOf checking.fuse.linksplitMask straps0.linksplit = true ∧ State.reset.boot.released ≠ 9
    ∧ (beginTraining checking).boot.mode = .rom ∧ (beginTraining checking).boot.training = true ∧ report0.arrayBad = false
    ∧ ({ report0 with arrayBad := true } : TrainReport).arrayBad = true := by decide +kernel

theorem witness_HostedReports :
    (let c := fleos 0 0x16 []
     runs (give c trd) c = true ∧ allStopped (stopContexts (running c (give c trd))) = true
     ∧ (let s := give c { (seQ 3 (seCmd 0x31 [(20, 4, 1)])) with boot := trd.boot }
        runs s c = true ∧ allStopped (stopContexts (running c s)) = false)
     ∧ (let c := { c with phase := .running }
        cmdOf (give c trd) c.src = some c ∧ allStopped (stopContexts (give c trd)) = true))
    ∧ (let c := fleos 0 0x17 []
       runs (give c (at_ .recovery)) c = true)
    ∧ (let c := { ringCmd 0 .waiting with desc := desc 0x18 [(17, 1, 1), (18, 1, 2), (24, 8, 4096), (32, 8, 64), (40, 8, 0)] }
       runs (give c (at_ .recovery)) c = true ∧ testGrans 2 4096 64 = [4096] ∧ (testFailure (give c (at_ .recovery)) 1 [] 4096).isNone = true)
    ∧ (let c := fleos 0 0x14 [(17, 1, 1), (32, 4, 2 ^ 20)]
       runs (give c trd) c = true ∧ (telemetryBlock trd c.src 1 (2 ^ 20) false).length ≤ 2 ^ 20
       ∧ 64 < (telemetryBlock trd c.src 1 64 false).length)
    ∧ (let c := fleos 0 0x15 []
       runs (give c trd) c = true ∧ keyAwaited trd = false ∧ runs (give c checking) c = true ∧ keyAwaited checking = true) := by
  decide +kernel

/-! ### Witnesses: management, registers, steps -/

/-- A challenge outstanding, and its answer but for the signature. -/
def challenged : State := { trd with mgt := { trd.mgt with challenge := some (natLe 96 769, 0) } }
def token : List Byte := natLe 96 769 ++ natLe 4 3 ++ natLe 96 0 ++ natLe 4 0

/-- The token of a challenge for scope 3 is good where its signature is; the host of the debug key decides that. -/
theorem witness_MgtRows_token (h : Config.debugSignatureGood (token.take 100) (token.drop 100) = true) : tokenGood challenged token = true := by
  simp only [tokenGood, challenged, h, Bool.and_true]
  decide +kernel

theorem witness_MgtRows : mgtUp State.reset 0 = false ∧ mgtUp trd 0 = true ∧ portCmd trd 0 = none ∧ staging trd 0 = false
    ∧ (let s := give (fleos 4 0x14 []) { trd with mgt := { trd.mgt with ports := trd.mgt.ports.modify 0 (fun m => { m with outstanding := some 4 }) } }
       mgtUp s 0 = true ∧ (portCmd s 0).isSome = true ∧ staging s 0 = true)
    ∧ (let s := { trd with mgt := { trd.mgt with ports := trd.mgt.ports.modify 0 (fun m => { m with staged := [1, 2, 3] }) } }
       mgtUp s 0 = true ∧ 1 + 2 ≤ (mgtPort s 0).staged.length)
    ∧ bitOf trd.regs.mgtCtrl 2 = true ∧ bitOf ({ trd.regs with mgtCtrl := 3 } : Regs).mgtCtrl 2 = false ∧ (1 : Nat) ≠ devOf trd
    ∧ debugRefusing trd = false ∧ debugRefusing { trd with mgt := { trd.mgt with failures := 8 } } = true
    ∧ head0.reserved = 0 ∧ ({ head0 with reserved := 1 } : MgtHead).reserved ≠ 0
    ∧ (insecure trd).mgt.ide.any (fun k => !k.secure) = true ∧ trd.mgt.ide.any (fun k => !k.secure) = false
    ∧ (insecure trd).mgt.ide.any (fun k => k.number == 3) = true
    ∧ unlockState challenged = true ∧ tokenGood trd token = false ∧ trd.boot.ready = true ∧ trd.boot.hold ≠ 1 ∧ ideRoom trd 3 true = true
    ∧ fnUp trd 0 = true ∧ State.reset.boot.ready = false ∧ fnUp State.reset 0 = true ∧ (cfgValue trd 0 8).isSome = true := by decide +kernel

theorem witness_RegisterRows : barUp State.reset 0 = false ∧ barUp trd 0 = true ∧ (0x20, 4, 0x00010FFF) ∈ settingsRegs
    ∧ trd.regs.locked = false ∧ trd.contexts = [] ∧ settingFits 0x20 (leNat (natLe 8 0x00010014) &&& 0x00010FFF) = true
    ∧ settingFits 0x4018 (leNat (natLe 8 0) &&& 0x0FFF) = false ∧ (inCtx trd).contexts ≠ []
    ∧ ({ trd.regs with locked := true } : Regs).locked = true ∧ bitOf 1 0 = true ∧ bitOf 2 0 = false ∧ 0 < trd.fns.length
    ∧ (fnOf trd 0).enable = false ∧ (fnOf ringed 0).enable = true ∧ (fnOf ringed 0).rings ≠ [] ∧ barUp ringed 0 = true
    ∧ trd.mgt.unlocked = false ∧ holdOrdered 0x40 = true ∧ bitOf 7 2 = true := by decide +kernel

theorem witness_StepRunsFront : ({ rdy with pending := [.tick [], .dieFloorStep] } : State).pending = .tick [] :: [.dieFloorStep]
    ∧ rdy.pending = [] ∧ powerRuns State.reset = false ∧ powerRuns rdy = true ∧ rdy.boot.mode ≠ .off
    ∧ ((2 ^ 32 : Nat) : Int) = (rdy.herd.time * 2 ^ 32 + rdy.herd.frac + 2 ^ 32 : Nat) + rdy.herd.rate := by decide +kernel

theorem witness_StepKeepsMemory : State.reset.memOk
    ∧ (match step { State.reset with pending := [.domainRelease] } with | .next _ => true | _ => false) = true := by decide +kernel

theorem witness_OffOnlyByLockout : (match step { rdy with pending := [.inputLockout 4100] } with
    | .next t => t.boot.mode == .off | _ => false) = true := by decide +kernel

/-! ### Single commands, with results from the manual -/

/-- What a test reads of a next state. -/
def seen {α : Type} (f : State → α) : Host.Outcome State Fault Refusal → Option α
  | .next t => some (f t)
  | _ => none

/-- Table 23-10: bit 0 sets LOCKED. Table 23-11 reserves bits [31:3] of MGT_CTRL; R521 counts the write ignored while locked. -/
theorem test_sec_lock : seen (fun t => t.regs.locked) (exec (.secLock 1) trd) = some true := by decide +kernel
theorem test_mgt_ctrl : seen (fun t => t.regs.mgtCtrl) (exec (.mgtCtrl (natLe 4 0xFFFFFFFD)) trd) = some 5 := by decide +kernel
theorem test_setting_out_of_range :
    seen (fun t => (t.regs.pwrTherm, t.regs.writesIgnored)) (exec (.registerWrite 0 0x4018 (natLe 8 0x0340)) trd) = some (0x0364, 1) := by
  decide +kernel
/-- R440: DIE_THR is 100 at reset (0x64), HYST 3. -/
theorem test_die_floor_rises : seen (fun t => t.pwr.dieFloor)
    (exec .dieFloorStep { rdy with pwr := { rdy.pwr with temps := [90, 101], dieFloor := 56 } }) = some 56 := by decide +kernel
theorem test_die_floor_falls : seen (fun t => t.pwr.dieFloor)
    (exec .dieFloorStep { rdy with pwr := { rdy.pwr with temps := [96, 90], dieFloor := 16 } }) = some 8 := by decide +kernel
/-- Table 19-1: 72 V is the absolute maximum. -/
theorem test_input_damage : (match exec (.inputLockout 7201) rdy with | .fault f => some f | _ => none) = some .inputDamage := by decide +kernel
theorem test_input_lockout : seen (fun t => (t.boot.mode, t.boot.released)) (exec (.inputLockout 6401) rdy) = some (.off, 0) := by
  decide +kernel
/-- R458: one domain at a time; Table 21-2: a module reset leaves ROM with its cause. -/
theorem test_domain_release : seen (fun t => t.boot.released) (exec .domainRelease State.reset) = some 3 := by decide +kernel
theorem test_module_reset : seen (fun t => (t.boot.mode, t.boot.lastReset, t.boot.released)) (exec (.moduleReset 2) rdy) = some (.rom, 2, 2) := by
  decide +kernel
/-- R348: at 8 intervals the refresh issues and counter 4 of group 10 counts it. -/
theorem test_refresh_at_limit : seen (fun t => (tabNat (stackAt t 2).postponed 323, tabNat t.counters (0xA0004 * 2 ^ 32 + 2)))
    (exec (.refresh 2 5 3 false) (stacked (fun k => { k with postponed := [(323, 8)] }))) = some (0, 1) := by decide +kernel
/-- R349: 95 °C is the threshold at reset (0x5F), 3 °C a step. -/
theorem test_stack_step : seen (fun t => (stackAt t 2).step) (exec (.stackTempReading 2 [90, 98]) trd) = some 2 := by decide +kernel
/-- R101, R102: a retired command gives way to the next; a stop request then holds the queue. -/
theorem test_command_retire : (let c := seCmd 0x31 [(1, 1, 1), (22, 2, 5), (20, 4, 1)]
    let s := qState false .se { queue 3 0 [c, c] with issued := 1, worked := true } rdy
    seen (fun t => (queueAt t .se 0).map (fun x => (x.state, x.head))) (exec (.commandRetire .se 0) s)) = some (some (2, 1)) := by decide +kernel
theorem test_command_retire_holds : (let c := seCmd 0x31 [(20, 4, 1)]
    let s := qState false .se { queue 3 0 [c, c] with issued := 1, worked := true, stopReq := some 1 } rdy
    seen (fun t => (queueAt t .se 0).map (fun x => x.state)) (exec (.commandRetire .se 0) s)) = some (some 4) := by decide +kernel
/-- R383, Table 16-2: ADD, and the old value in RESULT. -/
theorem test_atomic_add : (let s := poke 4096 (natLe 8 40) (feWorks 0x12 [(32, 8, 4096 + 2 ^ 56), (40, 8, 2), (56, 8, 8192)])
    seen (fun t => (fieldAt (Machine.peek t 4096 8) 0 8, fieldAt (Machine.peek t 8192 8) 0 8)) (exec (.atomic 0) s)) = some (42, 40) := by decide +kernel
/-- Table 16-1: PUT copies whole granules. -/
theorem test_put_local : (let s := poke 4096 (natLe 8 40) (feWorks 0x11 [(32, 8, 8192), (40, 8, 4096), (48, 4, 1)])
    seen (fun t => fieldAt (Machine.peek t 8192 8) 0 8) (exec (.put 0) s)) = some 40 := by decide +kernel
/-- R509: a second DESCRIPTOR is answered BUSY. -/
theorem test_descriptor_busy :
    seen (fun t => t.out) (exec (.descriptor 0 head0 (natLe 64 0)) (give (fleos 4 0x14 [])
      { trd with mgt := { trd.mgt with ports := trd.mgt.ports.modify 0 (fun m => { m with outstanding := some 4 }) } }))
    = some [Out.mgt 0 1 1 9 []] := by decide +kernel
/-- R498: VF Enable. -/
theorem test_vf_enable : seen (fun t => (t.boot.vfEnable, t.boot.numVfs)) (exec (.vfEnable true 4) trd) = some (true, 4) := by decide +kernel
/-- R40 to R42: a TICK in READY takes the frame number on. -/
theorem test_tick : seen (fun t => t.herd.frame) (exec (.tick []) master) = some 5 := by decide +kernel
/-- R34: sixteen updates make it locked, one SYNC does not. -/
theorem test_sync_first : seen (fun t => (t.herd.masterDev, t.herd.locked))
    (exec (.sync { msg0 with originTs := 1000 }) (at_ .herd)) = some (3, false) := by decide +kernel
/-- R129, R130: CTX_CREATE and CTX_DESTROY. -/
theorem test_ctx_create : seen (fun t => (ctxAt t 1).isSome) (exec (.ctxCreate (.mgt 0)) (give (run1 1 []) trd)) = some true := by decide +kernel
theorem test_ctx_destroy : seen (fun t => (ctxAt t 1).isSome) (exec (.ctxDestroy (.mgt 0)) (give (run1 2 []) (inCtx trd))) = some false := by decide +kernel
/-- Table 7-2, Table 7-4: the largest codes; Table 7-6: tag 127 is 1. -/
theorem test_quantise_zero : (quantScaled 0 (List.replicate 32 0)).tag = 0 := by decide +kernel
theorem test_f32_add : addF32 0x3F800000 0x40000000 = 0x40400000 := by decide +kernel
theorem test_f32_round_even : addF32 0x4B800000 0x3F800000 = 0x4B800000 := by decide +kernel
/-- Check values of the codes that Table 15-1 and R411 name. -/
theorem test_crc32c : crc32c [0x31, 0x32, 0x33, 0x34, 0x35, 0x36, 0x37, 0x38, 0x39] = 0xE3069283 := by decide +kernel
theorem test_sha384_abc : (sha384 [0x61, 0x62, 0x63]).take 4 = [0xCB, 0x00, 0x75, 0x3F] := by decide +kernel
/-- R411: the fourth failure poisons what the flit carries; edge 41 is from B01 at (1, 0) to B02 at (2, 0), where 4096 is (R9, R13, R334). -/
theorem test_mesh_poison : seen (fun t => (loadBytes 4096 64 t).2.1)
    (exec (.meshFlitReceive 41 [0x31] 0 [4096]) { trd with mem := { trd.mem with meshTries := [(41, 3)] } }) = some true := by decide +kernel

end Sys2Proof.Tests
end

section
/-! PROOFS. Ring indices and the completion record (03_host_rings_and_acceptance.md, R70, R80): the arithmetic of indices and of
PHASE, and that signalling a record, which follows its write (R63), leaves host memory as the record has made it. -/
namespace Sys2Proof.Machine

/-! ### Index arithmetic -/

theorem diff32_eq_sub_emod {a b : Nat} (hb : b < 2 ^ 32) : (diff32 a b : Int) = ((a : Int) - b) % 2 ^ 32 := by
  rw [diff32, Nat.mod_eq_of_lt hb]
  omega

theorem phaseBit_eq_xor (n i : Nat) : phaseBit n i = ((i >>> n) &&& 1) ^^^ 1 := by
  rw [phaseBit, Nat.shiftRight_eq_div_pow, Nat.and_one_is_mod]
  rcases Nat.mod_two_eq_zero_or_one (i / 2 ^ n) with h | h <;> simp [h]

/-- On the first pass over a ring PHASE is 1, which zeroed memory does not hold. -/
theorem phaseBit_first_pass {n i : Nat} (h : i < 2 ^ n) : phaseBit n i = 1 := by
  simp [phaseBit, Nat.div_eq_of_lt h]

/-! ### Signalling writes no host memory -/

variable (s : State)

theorem signalVector_host_cells (fn v : Nat) : (signalVector fn v s).host.cells = s.host.cells := by
  unfold signalVector
  split
  case isTrue => rfl
  case isFalse => split <;> rfl

theorem signalRing_host_cells (fn n : Nat) : (signalRing fn n s).host.cells = s.host.cells := by
  unfold signalRing
  split
  case h_1 => simp [signalVector_host_cells]
  case h_2 => rfl

theorem recordSignal_host_cells (fn n : Nat) : (recordSignal fn n s).host.cells = s.host.cells := by
  unfold recordSignal
  split
  case h_1 => dsimp only; split <;> simp [signalRing_host_cells]
  case h_2 => rfl

theorem hostBytes_recordSignal (fn n a k : Nat) : hostBytes (recordSignal fn n s) a k = hostBytes s a k := by
  simp [hostBytes, recordSignal_host_cells]

theorem hostBytes_updRing (fn n a k : Nat) (g : Ring → Ring) : hostBytes (updRing fn n g s) a k = hostBytes s a k := rfl

variable {s}

/-! ### The completion record -/

/-- A completion record to an open ring reaches host memory in the slot of its index, with the PHASE of its index. -/
theorem hostBytes_writeCompletion {fn cn index : Nat} {c : Ring} (tag st op d r tm : Nat) (hc : ringAt s fn cn = some c)
    (hs : insecureAt s (c.base + index % 2 ^ c.log2 * 32) = false) :
    hostBytes (writeCompletion fn cn index tag st op d r tm s) (c.base + index % 2 ^ c.log2 * 32) 32 =
      completionBytes index tag st (phaseBit c.log2 index) op d r tm := by
  simp only [writeCompletion, hc, Ring.size, hostBytes_recordSignal, hostBytes_updRing]
  simpa using hostBytes_hostWrite_same (completionBytes index tag st (phaseBit c.log2 index) op d r tm) hs

end Sys2Proof.Machine
end

section
open Sys2Proof.Machine

/-- Settles O10: the arithmetic clauses from the definitions, the slot from what `writeCompletion` writes. -/
theorem indexArithmetic : Obligations.IndexArithmetic := by
  unfold Obligations.IndexArithmetic
  refine ⟨fun a b _ hb => diff32_eq_sub_emod hb, phaseBit_eq_xor, fun n i h => ?_,
    fun s fn cn index tag st op d r tm c => hostBytes_writeCompletion tag st op d r tm⟩
  simp [phaseBit_first_pass h]

end

section
/-! PROOFS. The die floor (19_power_and_cooling.md, R440): the hottest reading against a threshold, what noting the throttle
reasons (R435, R436) leaves of the power state, and the floor that one DIE_FLOOR_STEP sets. -/
namespace Sys2Proof.Machine

variable {s : State}

/-! ### The hottest reading -/

theorem hottestDie_eq_max (h : s.pwr.temps ≠ []) : hottestDie s = s.pwr.temps.max h := by
  simp [hottestDie, List.foldl_max_eq_max h]

theorem hottestDie_mem (h : s.pwr.temps ≠ []) : hottestDie s ∈ s.pwr.temps :=
  hottestDie_eq_max h ▸ List.max_mem h

theorem le_hottestDie {r : Nat} (hr : r ∈ s.pwr.temps) : r ≤ hottestDie s :=
  hottestDie_eq_max (List.ne_nil_of_mem hr) ▸ List.le_max_of_mem hr

theorem lt_hottestDie_iff (h : s.pwr.temps ≠ []) (n : Nat) : n < hottestDie s ↔ ∃ r ∈ s.pwr.temps, n < r :=
  ⟨fun hn => ⟨_, hottestDie_mem h, hn⟩, fun ⟨_, hr, hn⟩ => hn.trans_le (le_hottestDie hr)⟩

theorem hottestDie_add_lt_iff (h : s.pwr.temps ≠ []) (d n : Nat) :
    hottestDie s + d < n ↔ ∀ r ∈ s.pwr.temps, r + d < n :=
  ⟨fun hn _ hr => (Nat.add_le_add_right (le_hottestDie hr) d).trans_lt hn, fun hall => hall _ (hottestDie_mem h)⟩

/-! ### Noting the throttle reasons -/

/-- A reason set changes the reasons alone; its event is no part of the power state. -/
theorem setReason_pwr (code : Nat) (on : Bool) (s : State) :
    ∃ rs, (setReason code on s).pwr = { s.pwr with reasons := rs } := by
  unfold setReason
  split
  case h_1 => exact ⟨s.pwr.reasons, rfl⟩
  case h_2 r _ =>
    split
    case isTrue =>
      dsimp only
      split
      · exact ⟨_, rfl⟩
      · exact ⟨_, postEvent_pwr ..⟩
    case isFalse => exact ⟨_, rfl⟩

theorem foldl_setReason_pwr (code : Nat → Nat) (on : State → Nat → Bool) (l : List Nat) (s : State) :
    ∃ rs, (l.foldl (fun s i => setReason (code i) (on s i) s) s).pwr = { s.pwr with reasons := rs } := by
  induction l generalizing s with
  | nil => exact ⟨s.pwr.reasons, rfl⟩
  | cons i l ih =>
    obtain ⟨rs, hl⟩ := ih (setReason (code i) (on s i) s)
    obtain ⟨_, hi⟩ := setReason_pwr (code i) (on s i) s
    exact ⟨rs, by rw [List.foldl_cons, hl, hi]⟩

theorem noteReasons_pwr (s : State) :
    ∃ rs hot, (noteReasons s).pwr = { s.pwr with reasons := rs, frameHot := hot } := by
  obtain ⟨rs, h⟩ := foldl_setReason_pwr (· + 3) (fun s i => reasonHolds s (i + 3)) (List.range 6) s
  unfold noteReasons
  dsimp only
  split
  · exact ⟨rs, true, by rw [h]⟩
  · exact ⟨rs, s.pwr.frameHot, h⟩

@[simp] theorem noteReasons_dieFloor (s : State) : (noteReasons s).pwr.dieFloor = s.pwr.dieFloor := by
  obtain ⟨_, _, h⟩ := noteReasons_pwr s
  rw [h]

/-! ### The step of the floor -/

/-- The floor that a DIE_FLOOR_STEP leaves (R440). -/
def nextDieFloor (s : State) : Nat :=
  if dieThr s < hottestDie s then min 56 (s.pwr.dieFloor + 8)
  else if hottestDie s + dieHyst s < dieThr s then s.pwr.dieFloor - 8 else s.pwr.dieFloor

theorem exec_dieFloorStep (hp : powerRuns s = true) (ht : s.pwr.temps ≠ []) :
    exec .dieFloorStep s = .next (noteReasons { s with pwr := { s.pwr with dieFloor := nextDieFloor s } }) := by
  simp [exec, execDieFloorStep, nextDieFloor, hp, ht]

theorem nextDieFloor_of_hot (h : dieThr s < hottestDie s) : nextDieFloor s = min 56 (s.pwr.dieFloor + 8) := if_pos h

theorem nextDieFloor_of_cool (h : hottestDie s + dieHyst s < dieThr s) : nextDieFloor s = s.pwr.dieFloor - 8 := by
  rw [nextDieFloor, if_neg (by omega), if_pos h]

theorem nextDieFloor_of_between (hot : ¬ dieThr s < hottestDie s) (cool : ¬ hottestDie s + dieHyst s < dieThr s) :
    nextDieFloor s = s.pwr.dieFloor := by
  rw [nextDieFloor, if_neg hot, if_neg cool]

theorem nextDieFloor_le (h : s.pwr.dieFloor ≤ 56) : nextDieFloor s ≤ 56 := by
  unfold nextDieFloor
  split
  · exact Nat.min_le_left ..
  · split <;> omega

end Sys2Proof.Machine
end

section
open Sys2Proof.Machine

/-- Settles O49: R440 speaks of the readings, the step of their hottest; the throttle reasons noted after it leave the floor. -/
theorem dieFloor : Obligations.DieFloor := by
  unfold Obligations.DieFloor
  intro s hp ht
  refine ⟨_, exec_dieFloorStep hp ht, ?_⟩
  rw [noteReasons_dieFloor, ← lt_hottestDie_iff ht, ← hottestDie_add_lt_iff ht]
  exact ⟨nextDieFloor_of_hot, nextDieFloor_of_cool, nextDieFloor_of_between, nextDieFloor_le⟩

end

section
/-! PROOFS. One frame relation, `Kept`, through every function of the state: what O59 and O60 say of a step. Each
lemma `f_kept` says that `f` keeps `Kept s` of its argument; the file names are those of the model. -/
namespace Sys2Proof.Machine

/-- What the invariants of a step speak of: the byte memories, the fuses, the queue of commands and the mode. -/
def keptParts (t : State) : List Host.Cell × List Host.Cell × List Host.Cell × Fuse × List Instr × Mode :=
  (t.host.cells, t.mem.cells, t.mem.tags, t.fuse, t.pending, t.boot.mode)

/-- `t` keeps of `s` what O59 and O60 ask of a step: canonical memories, the fuses, the queue, and not being in OFF. -/
structure Kept (s t : State) : Prop where
  mem : s.memOk → t.memOk
  fuse : t.fuse = s.fuse
  pending : t.pending = s.pending
  off : t.boot.mode = .off → s.boot.mode = .off

variable {s t u : State}

theorem Kept.refl : Kept s s := ⟨id, rfl, rfl, id⟩

theorem Kept.same (h : Kept s t) (e : keptParts u = keptParts t) : Kept s u := by
  simp only [keptParts, Prod.mk.injEq] at e
  obtain ⟨e1, e2, e3, e4, e5, e6⟩ := e
  refine ⟨fun k => ?_, e4.trans h.fuse, e5.trans h.pending, fun k => h.off (e6 ▸ k)⟩
  have := h.mem k
  simp only [State.memOk, e1, e2, e3] at this ⊢
  exact this

/-- The next state of an answer, where there is one, keeps of `s` what `Kept` says. -/
def KeptOut (s : State) : Answer → Prop
  | .next t => Kept s t
  | _ => True

theorem Kept.ite {c : Prop} {_ : Decidable c} (ht : Kept s t) (hu : Kept s u) : Kept s (if c then t else u) := by
  split
  · exact ht
  · exact hu
theorem Kept.ofEq {α : Type} {p q : α × State} (e : p = q) (h : Kept s p.2) : Kept s q.2 := e ▸ h
theorem Kept.ofEq₂ {α β : Type} {p q : α × β × State} (e : p = q) (h : Kept s p.2.2) : Kept s q.2.2 := e ▸ h

theorem Kept.foldl {α : Type} {f : State → α → State} {l : List α} (h : Kept s t)
    (hf : ∀ u x, Kept s u → Kept s (f u x)) :
    Kept s (l.foldl f t) := by
  induction l generalizing t with
  | nil => exact h
  | cons x l ih => exact ih (hf t x h)

theorem Kept.foldl₂ {α β : Type} {f : β × State → α → β × State} {l : List α} {p : β × State} (h : Kept s p.2)
    (hf : ∀ q x, Kept s q.2 → Kept s (f q x).2) : Kept s (l.foldl f p).2 := by
  induction l generalizing p with
  | nil => exact h
  | cons x l ih => exact ih (hf p x h)

theorem Kept.toMode {m : Mode} (hm : m ≠ .off) (h : Kept s t) : Kept s { t with boot := { t.boot with mode := m } } :=
  ⟨h.mem, h.fuse, h.pending, fun k => absurd k hm⟩

theorem Kept.foldlPair {α β : Type} {f : β × State → α → β × State} {l : List α} {b : β} (h : Kept s t)
    (hf : ∀ q x, Kept s q.2 → Kept s (f q x).2) : Kept s (l.foldl f (b, t)).2 := Kept.foldl₂ h hf

theorem setFab_kept {f} (h : Kept s t) : Kept s { t with fab := f } := h.same rfl
theorem setEng_kept {e} (h : Kept s t) : Kept s { t with eng := e } := h.same rfl
theorem setContexts_kept {c} (h : Kept s t) : Kept s { t with contexts := c } := h.same rfl
theorem setStreams_kept {c} (h : Kept s t) : Kept s { t with streams := c } := h.same rfl
theorem setPwr_kept {p} (h : Kept s t) : Kept s { t with pwr := p } := h.same rfl
theorem setLinks_kept {p} (h : Kept s t) : Kept s { t with links := p } := h.same rfl
theorem setDue_kept {p} (h : Kept s t) : Kept s { t with due := p } := h.same rfl
theorem setCmds_kept {c} (h : Kept s t) : Kept s { t with cmds := c } := h.same rfl
theorem setFaults_kept {a b} (h : Kept s t) : Kept s { t with boot := { t.boot with thermalHold := a, faultHeld := b } } :=
  h.same rfl
theorem setCache_kept {c} (h : Kept s t) : Kept s { t with mem := { t.mem with cache := c } } := h.same rfl

theorem rawPut_kept {a g} (h : Kept s t) : Kept s { t with mem := rawPut t.mem a g } :=
  ⟨fun k => ⟨(h.mem k).1, wf_cellsSet _ _ (h.mem k).2.1, wf_cellsSet _ _ (h.mem k).2.2⟩, h.fuse, h.pending, h.off⟩

/-! ### Sys2Proof/Machine/Ops.lean -/

theorem takeNat_kept {n} (h : Kept s t) : Kept s (takeNat n t).2 := h.same rfl
theorem takeBool_kept (h : Kept s t) : Kept s (takeBool t).2 := h.same rfl

theorem hostPut_kept {a bs} (h : Kept s t) : Kept s (hostPut a bs t) :=
  ⟨fun k => ⟨wf_cellsSet _ _ (h.mem k).1, (h.mem k).2⟩, h.fuse, h.pending, h.off⟩

theorem holdReq_kept {r} (h : Kept s t) : Kept s (holdReq r t) := h.same rfl

theorem hostWrite_kept {a bs} (h : Kept s t) : Kept s (hostWrite a bs t) := by
  cases hi : insecureAt t a with
  | true => exact hostWrite_held bs hi ▸ holdReq_kept h
  | false => exact hostWrite_sent bs hi ▸ hostPut_kept h

theorem hostStore_kept {x} (h : Kept s t) : Kept s (hostStore t x) :=
  Kept.ite (Kept.same (hostPut_kept h) rfl) (hostPut_kept h)

theorem hostStores_kept {hs} (h : Kept s t) : Kept s (hostStores hs t) :=
  Kept.foldl h (fun _ _ h1 => hostStore_kept h1)

theorem emit_kept {o} (h : Kept s t) : Kept s (emit o t) := h.same rfl
theorem bump_kept {group index scope n} (h : Kept s t) : Kept s (bump group index scope n t) := h.same rfl
theorem setCounter_kept {group index scope n} (h : Kept s t) : Kept s (setCounter group index scope n t) := h.same rfl
theorem updFn_kept {f g} (h : Kept s t) : Kept s (updFn f g t) := h.same rfl
theorem updRing_kept {f n g} (h : Kept s t) : Kept s (updRing f n g t) := h.same rfl
theorem updCtx_kept {c g} (h : Kept s t) : Kept s (updCtx c g t) := h.same rfl
theorem updStream_kept {slot g} (h : Kept s t) : Kept s (updStream slot g t) := h.same rfl
theorem updLink_kept {l g} (h : Kept s t) : Kept s (updLink l g t) := h.same rfl
theorem updStack_kept {n g} (h : Kept s t) : Kept s (updStack n g t) := h.same rfl
theorem setQueue_kept {e q x} (h : Kept s t) : Kept s (setQueue e q x t) := h.same rfl
theorem updQueue_kept {e q g} (h : Kept s t) : Kept s (updQueue e q g t) := h.same rfl
theorem updProg_kept {c p g} (h : Kept s t) : Kept s (updProg c p g t) := h.same rfl

theorem signalVector_kept {fn v} (h : Kept s t) : Kept s (signalVector fn v t) :=
  Kept.ite (updFn_kept h) (Kept.ite (holdReq_kept h) (emit_kept h))

theorem releaseHeld_kept (h : Kept s t) : Kept s (releaseHeld t) := by
  unfold releaseHeld
  dsimp only
  refine Kept.foldl (h.same rfl) ?_
  intro _ _ h1
  split
  · exact hostWrite_kept h1
  · exact Kept.ite (holdReq_kept h1) (emit_kept h1)

theorem signalRing_kept {fn n} (h : Kept s t) : Kept s (signalRing fn n t) := by
  unfold signalRing
  split
  · exact signalVector_kept (updRing_kept h)
  · exact h

theorem recordSignal_kept {fn n} (h : Kept s t) : Kept s (recordSignal fn n t) := by
  unfold recordSignal
  dsimp only
  split
  · exact Kept.ite (signalRing_kept (updRing_kept h)) (updRing_kept h)
  · exact h

theorem publish_kept {fn n} (h : Kept s t) : Kept s (publish fn n t) := by
  unfold publish
  split
  · exact Kept.ite h (hostWrite_kept h)
  · exact h

theorem writeEvent_kept {fn n r code reason about data} (h : Kept s t) :
    Kept s (writeEvent fn n r code reason about data t) :=
  recordSignal_kept (publish_kept (updRing_kept (hostWrite_kept h)))

theorem postEvent_kept {fn code reason about data} (h : Kept s t) :
    Kept s (postEvent fn code reason about data t) := by
  unfold postEvent
  split
  · exact updFn_kept h
  · exact Kept.ite (updFn_kept h) (writeEvent_kept h)

theorem postLost_kept {fn} (h : Kept s t) : Kept s (postLost fn t) := by
  unfold postLost
  dsimp only
  split
  · exact h
  · exact Kept.ite h (writeEvent_kept (updFn_kept h))

theorem breakSpan_kept (h : Kept s t) : Kept s (breakSpan t) := h.same rfl

theorem recordErr_kept {e} (h : Kept s t) : Kept s (recordErr e t) :=
  Kept.ite (h.same rfl) (postEvent_kept (h.same rfl))

theorem t1Put_kept {a g} (h : Kept s t) : Kept s (t1Put a g t) :=
  Kept.ite (recordErr_kept h) (bump_kept (rawPut_kept h))

theorem writeBack_kept {l} (h : Kept s t) : Kept s (writeBack l t) :=
  Kept.foldl h (fun _ _ h1 => Kept.ite (bump_kept (t1Put_kept h1)) h1)

theorem touchLine_kept {a} (h : Kept s t) : Kept s (touchLine a t) := by
  unfold touchLine
  dsimp only
  split
  · exact bump_kept (h.same rfl)
  · refine bump_kept ?_
    refine setCache_kept ?_
    split
    · exact writeBack_kept (h.same rfl)
    · exact h

theorem flushCache_kept (h : Kept s t) : Kept s (flushCache t) :=
  Kept.ite h (bump_kept (setCache_kept (Kept.foldl h (fun _ _ h1 => writeBack_kept h1))))

theorem addressErr_kept {a write} (h : Kept s t) : Kept s (addressErr a write t) := recordErr_kept h

theorem loadGran_kept {a} (h : Kept s t) : Kept s (loadGran a t).2 := by
  unfold loadGran
  dsimp only
  split
  · dsimp only
    exact addressErr_kept h
  · exact h
  · split
    · dsimp only
      exact addressErr_kept h
    · exact h
  · split
    · split
      · dsimp only
        exact touchLine_kept h
      · dsimp only
        exact touchLine_kept h
    · dsimp only
      exact bump_kept h

theorem storeGran_kept {a g} (h : Kept s t) : Kept s (storeGran a g t) := by
  unfold storeGran
  dsimp only
  split
  · exact addressErr_kept h
  · exact rawPut_kept h
  · exact Kept.ite (addressErr_kept h) (rawPut_kept h)
  · exact Kept.ite (setCache_kept (touchLine_kept h)) (t1Put_kept h)

theorem loadGrans_kept {n a} (h : Kept s t) : Kept s (loadGrans n a t).2 := by
  induction n generalizing a t with
  | zero => exact h
  | succ n ih => exact ih (loadGran_kept h)

theorem loadBytes_kept {a n} (h : Kept s t) : Kept s (loadBytes a n t).2.2 := loadGrans_kept h
theorem updCmd_kept {order g} (h : Kept s t) : Kept s (updCmd order g t) := h.same rfl

theorem finish_kept {order status detail result} (h : Kept s t) : Kept s (finish order status detail result t) := by
  unfold finish
  dsimp only
  split
  · exact h
  · split
    · exact h
    · split
      · exact updCmd_kept h
      · exact Kept.ite (h.same rfl) (emit_kept (h.same rfl))

theorem finishOk_kept {order result} (h : Kept s t) : Kept s (finishOk order result t) := finish_kept h
theorem finishNoRes_kept {order reason} (h : Kept s t) : Kept s (finishNoRes order reason t) := finish_kept h
theorem finishBad_kept {order off reason} (h : Kept s t) : Kept s (finishBad order off reason t) := finish_kept h

/-! ### Sys2Proof/Machine/Operands.lean -/

theorem beginInterval_kept (h : Kept s t) : Kept s (beginInterval t) := h.same rfl

/-! ### Sys2Proof/Machine/Transport.lean -/

theorem lcount_kept {l index n} (h : Kept s t) : Kept s (lcount l index n t) := h.same rfl

theorem putFlit_kept {l type seq payload} (h : Kept s t) : Kept s (putFlit l type seq payload t) := by
  unfold putFlit
  dsimp only
  split
  · exact emit_kept (lcount_kept (emit_kept (updLink_kept h)))
  · exact lcount_kept (emit_kept (updLink_kept h))

theorem sendPiece_kept {l i} (h : Kept s t) : Kept s (sendPiece l i t) := by
  unfold sendPiece
  dsimp only
  split
  · exact h
  · exact putFlit_kept (updLink_kept h)

theorem drainSome_kept {n l} (h : Kept s t) : Kept s (drainSome n l t) := by
  induction n generalizing t with
  | zero => exact h
  | succ n ih =>
    unfold drainSome
    split
    · exact ih (sendPiece_kept h)
    · exact h

theorem drainWaiting_kept {l} (h : Kept s t) : Kept s (drainWaiting l t) := drainSome_kept h

theorem sendBytes_kept {l vc gen again bs} (h : Kept s t) : Kept s (sendBytes l vc gen again bs t) :=
  Kept.ite h (drainWaiting_kept (updLink_kept h))

theorem replayAll_kept {l} (h : Kept s t) : Kept s (replayAll l t) :=
  Kept.foldl (updLink_kept h) (fun _ _ h1 => lcount_kept (putFlit_kept h1))

theorem tcount_kept {index dev n} (h : Kept s t) : Kept s (tcount index dev n t) := h.same rfl

theorem pcount_kept {index dev n p} (h : Kept s t) : Kept s (pcount index dev n p t) :=
  tcount_kept (Kept.ite (bump_kept h) h)

theorem sendPacket_kept {l p} (h : Kept s t) : Kept s (sendPacket l p t) := by
  unfold sendPacket
  exact sendBytes_kept (pcount_kept (pcount_kept (emit_kept h)))

theorem sendRouted_kept {p alternate} (h : Kept s t) : Kept s (sendRouted p alternate t).2 := by
  unfold sendRouted
  dsimp only
  split
  · dsimp only
    exact sendPacket_kept h
  · exact h

theorem sendResponse_kept {p} (h : Kept s t) : Kept s (sendResponse p t) := sendRouted_kept h
theorem markUnreachable_kept {dev} (h : Kept s t) : Kept s (markUnreachable dev t) := Kept.ite h (h.same rfl)

theorem launchRequest_kept {r} (h : Kept s t) : Kept s (launchRequest r t) := by
  unfold launchRequest
  dsimp only
  refine Kept.same (t := ite _ _ _) (Kept.ite (markUnreachable_kept (sendRouted_kept ?_)) (sendRouted_kept ?_)) rfl
  all_goals exact Kept.ite (updCtx_kept (h.same rfl)) (h.same rfl)

theorem issue_kept {o use p} (h : Kept s t) : Kept s (issue o use p t) := Kept.ite (launchRequest_kept h) (h.same rfl)
theorem drainHeld_kept (h : Kept s t) : Kept s (drainHeld t) := Kept.foldl (h.same rfl) (fun _ _ h1 => issue_kept h1)

theorem handHerd_kept {dst m} (h : Kept s t) : Kept s (handHerd dst m t) := by
  unfold handHerd
  dsimp only
  split
  · exact sendBytes_kept (emit_kept h)
  · exact emit_kept h

theorem sendHerd_kept {dst type body} (h : Kept s t) : Kept s (sendHerd dst type body t) := handHerd_kept (h.same rfl)

theorem broadcastHerd_kept {dsts type body} (h : Kept s t) : Kept s (broadcastHerd dsts type body t) :=
  Kept.foldl (h.same rfl) (fun _ _ h1 => handHerd_kept h1)

theorem updDir_kept {a g} (h : Kept s t) : Kept s (updDir a g t) := h.same rfl

theorem startRecall_kept {a} (h : Kept s t) : Kept s (startRecall a t) := by
  unfold startRecall
  dsimp only
  split
  · exact Kept.ite h (Kept.foldl (bump_kept (updDir_kept h)) (fun _ _ h1 => issue_kept h1))
  · exact h

theorem wantRecall_kept {a} (h : Kept s t) : Kept s (wantRecall a t) := by
  unfold wantRecall
  split
  · exact Kept.ite h (Kept.ite (startRecall_kept h) (updDir_kept h))
  · exact h

theorem putGran_kept {a g} (h : Kept s t) : Kept s (putGran a g t) := by
  unfold putGran
  split
  · exact wantRecall_kept (updDir_kept h)
  · exact storeGran_kept h

theorem putGrans_kept {a gs} (h : Kept s t) : Kept s (putGrans a gs t) := by
  induction gs generalizing a t with
  | nil => exact h
  | cons g gs ih => exact ih (putGran_kept h)

theorem putBytes_kept {a bs} (h : Kept s t) : Kept s (putBytes a bs t) :=
  Kept.foldl h (fun _ _ h1 => Kept.ite (putGran_kept h1) (Kept.ite (loadGran_kept h1) (putGran_kept
    (loadGran_kept h1))))

theorem putPoison_kept {a n} (h : Kept s t) : Kept s (putPoison a n t) := putGrans_kept h

/-! ### Sys2Proof/Machine/Queues.lean -/

theorem updHerd_kept {g} (h : Kept s t) : Kept s (updHerd g t) := h.same rfl
theorem advanceTo_kept {x} (h : Kept s t) : Kept s (advanceTo x t) := Kept.ite (updHerd_kept h) h
theorem freeUnits_kept {e q} (h : Kept s t) : Kept s (freeUnits e q t) := h.same rfl
theorem markWorked_kept {e q} (h : Kept s t) : Kept s (markWorked e q t) := h.same rfl
theorem signalEvent_kept {n} (h : Kept s t) : Kept s (signalEvent n t) := h.same rfl

theorem finishStarts_kept {ctx prog status detail} (h : Kept s t) :
    Kept s (finishStarts ctx prog status detail t) := by
  unfold finishStarts
  split
  · exact h
  · exact Kept.foldl (updProg_kept h) (fun _ _ h1 => finish_kept h1)

theorem faultQueue_kept {e q row} (h : Kept s t) : Kept s (faultQueue e q row t) := by
  unfold faultQueue
  dsimp only
  split
  · exact h
  · exact Kept.ite (finishStarts_kept (recordErr_kept (freeUnits_kept (h.same rfl)))) (finishStarts_kept
      (recordErr_kept (freeUnits_kept (h.same rfl))))

theorem settleDefect_kept {e q} (h : Kept s t) : Kept s (settleDefect e q t) := by
  unfold settleDefect
  dsimp only
  split
  · exact h
  · split
    · exact h
    · exact Kept.ite h (finishStarts_kept (recordErr_kept (setQueue_kept h)))

theorem dropTask_kept {e x} (h : Kept s t) : Kept s (dropTask e x t) := h.same rfl

theorem faultTask_kept {x r} (h : Kept s t) : Kept s (faultTask x r t) := by
  unfold faultTask
  dsimp only
  split
  · exact h
  · exact settleDefect_kept (dropTask_kept (updQueue_kept h))

theorem abandonFrames_kept {wait} (h : Kept s t) : Kept s (abandonFrames wait t) := h.same rfl
theorem owePrompts_kept {which frame} (h : Kept s t) : Kept s (owePrompts which frame t) := h.same rfl

theorem settleSlipOut_kept {ctx} (h : Kept s t) : Kept s (settleSlipOut ctx t) := by
  unfold settleSlipOut
  dsimp only
  split
  · exact h
  · refine Kept.foldl h ?_
    intro _ _ h1
    split
    · exact Kept.ite (finish_kept (updStream_kept h1)) h1
    · exact h1

theorem settleAll_kept (h : Kept s t) : Kept s (settleAll t) := Kept.foldl h (fun _ _ h1 => settleSlipOut_kept h1)

theorem leaveFrames_kept (h : Kept s t) : Kept s (leaveFrames t) :=
  settleAll_kept (owePrompts_kept (abandonFrames_kept h))

theorem timeBroadcast_kept (h : Kept s t) : Kept s (timeBroadcast t) := h.same rfl

theorem raiseSlips_kept {held newS} (h : Kept s t) : Kept s (raiseSlips held newS t) :=
  Kept.ite (settleAll_kept (updHerd_kept (owePrompts_kept (abandonFrames_kept (bump_kept (updHerd_kept h))))))
    (updHerd_kept h)

theorem applySlip_kept {frame newS cause first requesters} (h : Kept s t) :
    Kept s (applySlip frame newS cause first requesters t) :=
  Kept.ite h (raiseSlips_kept (updHerd_kept (bump_kept h)))

theorem noteDecision_kept {k sOld held} (h : Kept s t) : Kept s (noteDecision k sOld held t) := h.same rfl

theorem takeSlip_kept {k newS cause first requesters} (h : Kept s t) :
    Kept s (takeSlip k newS cause first requesters t) :=
  Kept.ite h (noteDecision_kept (applySlip_kept h))

theorem broadcastSlip_kept {k issuer rs} (h : Kept s t) : Kept s (broadcastSlip k issuer rs t) := by
  unfold broadcastSlip
  dsimp only
  split
  · exact h
  · exact takeSlip_kept (timeBroadcast_kept (broadcastHerd_kept h))

theorem decideWindow_kept {k} (h : Kept s t) : Kept s (decideWindow k t) :=
  Kept.ite h (Kept.ite (noteDecision_kept h) (Kept.ite (noteDecision_kept (bump_kept h)) (Kept.ite
    (broadcastSlip_kept h) (updHerd_kept h))))

theorem closeWindow_kept (h : Kept s t) : Kept s (closeWindow t) := Kept.ite (decideWindow_kept h) h
theorem addRecord_kept {r} (h : Kept s t) : Kept s (addRecord r t) := Kept.ite h (updHerd_kept h)

theorem takeRequest_kept {r} (h : Kept s t) : Kept s (takeRequest r t) := by
  unfold takeRequest
  dsimp only
  split
  · exact bump_kept (closeWindow_kept h)
  · split
    · exact bump_kept (closeWindow_kept h)
    · exact addRecord_kept (bump_kept (closeWindow_kept h))
    · exact Kept.ite (addRecord_kept (closeWindow_kept h)) (addRecord_kept (bump_kept (closeWindow_kept h)))

theorem requestSlip_kept {k cause engine queue} (h : Kept s t) : Kept s (requestSlip k cause engine queue t) :=
  Kept.ite h (Kept.ite (updHerd_kept h) (Kept.ite (bump_kept (updHerd_kept h)) (Kept.ite (Kept.ite (takeRequest_kept
    (Kept.ite (bump_kept (updHerd_kept h)) (updHerd_kept h))) (Kept.ite (bump_kept (updHerd_kept h))
    (updHerd_kept h))) (broadcastHerd_kept (Kept.ite (takeRequest_kept (Kept.ite (bump_kept (updHerd_kept h))
    (updHerd_kept h))) (Kept.ite (bump_kept (updHerd_kept h)) (updHerd_kept h)))))))

theorem retxSlip_kept {o} (h : Kept s t) : Kept s (retxSlip o t) := by
  unfold retxSlip
  dsimp only
  split
  · split
    · exact Kept.ite (requestSlip_kept h) h
    · exact h
  · exact h

/-! ### Sys2Proof/Machine/Links.lean -/

theorem routeChange_kept (h : Kept s t) : Kept s (routeChange t) := Kept.ite (h.same rfl) h
theorem afterLinks_kept {before} (h : Kept s t) : Kept s (afterLinks before t) := Kept.ite h (routeChange_kept h)

theorem ackUpTo_kept {l ack} (h : Kept s t) : Kept s (ackUpTo l ack t) := by
  unfold ackUpTo
  dsimp only
  split
  · exact drainWaiting_kept (updLink_kept h)
  · exact h

theorem sendNak_kept {l} (h : Kept s t) : Kept s (sendNak l t) :=
  Kept.ite h (lcount_kept (putFlit_kept (updLink_kept h)))

theorem countReplay_kept {l} (h : Kept s t) : Kept s (countReplay l t) := h.same rfl

theorem takeNak_kept {l ack} (h : Kept s t) : Kept s (takeNak l ack t) :=
  replayAll_kept (countReplay_kept (ackUpTo_kept (lcount_kept h)))

theorem execNak_kept {link ack} (h : Kept s t) : KeptOut s (execNak link ack t) := Kept.ite (takeNak_kept h) h

theorem execReplayTimeout_kept {link} (h : Kept s t) : KeptOut s (execReplayTimeout link t) :=
  Kept.ite (replayAll_kept (countReplay_kept (lcount_kept h))) h

theorem takeFlit_kept {l f fec} (h : Kept s t) : Kept s (takeFlit l f fec t) := by
  unfold takeFlit
  extract_lets ok a sf b ackw c d e
  have ha : Kept s a := by
    simp only [a]
    split
    · exact Kept.foldl (lcount_kept h) fun _ _ h => lcount_kept h
    · exact lcount_kept h
  have hb : Kept s b := updLink_kept ha
  have he : Kept s e := drainWaiting_kept (Kept.ite (ackUpTo_kept (updLink_kept hb)) (updLink_kept hb))
  split
  · exact sendNak_kept (lcount_kept (lcount_kept hb))
  · split
    · exact sendNak_kept (lcount_kept hb)
    · split
      · exact Kept.ite (updLink_kept (he.same rfl)) he
      · exact takeNak_kept he
      · exact he

theorem execFlitReceive_kept {link flit fec} (h : Kept s t) : KeptOut s (execFlitReceive link flit fec t) :=
  Kept.ite (takeFlit_kept h) h

theorem resendFrom_kept {l} (h : Kept s t) : Kept s (resendFrom l t) :=
  Kept.foldl h (fun _ _ h1 => Kept.ite (retxSlip_kept (setFab_kept (sendRouted_kept (pcount_kept h1)))) h1)

theorem dropCopies_kept {dev} (h : Kept s t) : Kept s (dropCopies dev t) := h.same rfl

theorem resendHerd_kept {held} (h : Kept s t) : Kept s (resendHerd held t) := by
  unfold resendHerd
  dsimp only
  refine Kept.foldl h ?_
  intro _ _ h1
  split
  · exact sendBytes_kept h1
  · exact h1

theorem leaveActive_kept {l g} (h : Kept s t) : Kept s (leaveActive l g t) := by
  unfold leaveActive
  dsimp only
  refine afterLinks_kept ?_
  refine resendFrom_kept ?_
  refine resendHerd_kept ?_
  split
  · exact dropCopies_kept (updLink_kept h)
  · exact updLink_kept h

theorem linkGoesDown_kept {l} (h : Kept s t) : Kept s (linkGoesDown l t) :=
  Kept.ite h (lcount_kept (leaveActive_kept h))

theorem execLinkDown_kept {link} (h : Kept s t) : KeptOut s (execLinkDown link t) := linkGoesDown_kept h

theorem startDegrade_kept {l lane} (h : Kept s t) : Kept s (startDegrade l lane t) :=
  Kept.ite (linkGoesDown_kept h) (emit_kept (lcount_kept (updLink_kept h)))

theorem execLaneLockLoss_kept {link lost symbolErrors} (h : Kept s t) :
    KeptOut s (execLaneLockLoss link lost symbolErrors t) := by
  unfold execLaneLockLoss
  dsimp only
  split
  · split <;> exact Kept.ite (startDegrade_kept h) h
  · exact h

theorem execDegradeMessage_kept {link lane lastSeq} (h : Kept s t) :
    KeptOut s (execDegradeMessage link lane lastSeq t) :=
  Kept.ite (Kept.ite (startDegrade_kept (ackUpTo_kept h)) (ackUpTo_kept h)) h

theorem execRetrainComplete_kept {link lastSeq} (h : Kept s t) : KeptOut s (execRetrainComplete link lastSeq t) := by
  unfold execRetrainComplete
  dsimp only
  split
  · exact h
  · exact Kept.ite h (Kept.ite (routeChange_kept (drainWaiting_kept (replayAll_kept (ackUpTo_kept (updLink_kept h)))))
      (drainWaiting_kept (replayAll_kept (ackUpTo_kept (updLink_kept h)))))

theorem linkErr_kept {l detail} (h : Kept s t) : Kept s (linkErr l detail t) := recordErr_kept h

theorem identify_kept {r} (h : Kept s t) : Kept s (identify r t) := by
  unfold identify
  dsimp only
  split
  · exact updLink_kept h
  · split
    · exact linkErr_kept (updLink_kept h)
    · exact updLink_kept h

theorem execIdentityBlock_kept {report} (h : Kept s t) : KeptOut s (execIdentityBlock report t) :=
  Kept.ite (identify_kept h) h

theorem execLinkRetrainAttempt_kept {link report} (h : Kept s t) :
    KeptOut s (execLinkRetrainAttempt link report t) := by
  unfold execLinkRetrainAttempt
  dsimp only
  split
  · exact h
  · split
    · exact h
    · exact Kept.ite (linkErr_kept (lcount_kept (afterLinks_kept (updLink_kept h)))) (linkErr_kept (updLink_kept h))

theorem execCableSupplyOverload_kept {connector} (h : Kept s t) : KeptOut s (execCableSupplyOverload connector t) :=
  Kept.ite h (Kept.foldl (h.same rfl) (fun _ _ h1 => linkGoesDown_kept h1))

theorem execCableSupplyRetry_kept {connector overload} (h : Kept s t) :
    KeptOut s (execCableSupplyRetry connector overload t) :=
  Kept.ite h (h.same rfl)

/-! ### Sys2Proof/Machine/Tiles.lean -/

theorem noteWeightPoison_kept {a} (h : Kept s t) : Kept s (noteWeightPoison a t) :=
  Kept.foldl h (fun _ _ h1 => Kept.foldl h1 (fun _ _ h2 => Kept.ite (updCtx_kept (recordErr_kept h2)) h2))

theorem emptyHot_kept {a} (h : Kept s t) : Kept s (emptyHot a t) := h.same rfl

theorem channelExhausted_kept {ch} (h : Kept s t) : Kept s (channelExhausted ch t) :=
  Kept.ite (recordErr_kept (bump_kept (h.same rfl))) (bump_kept (updStack_kept h))

theorem countCorrected_kept {a} (h : Kept s t) : Kept s (countCorrected a t) := h.same rfl

theorem applyMemErr_kept {e} (h : Kept s t) : Kept s (applyMemErr t e) := by
  unfold applyMemErr
  dsimp only
  split
  · exact bump_kept h
  · exact countCorrected_kept h
  · exact countCorrected_kept h
  · exact bump_kept h
  · exact emptyHot_kept (noteWeightPoison_kept (channelExhausted_kept (recordErr_kept (bump_kept (rawPut_kept h)))))
  · exact emptyHot_kept (noteWeightPoison_kept (recordErr_kept (bump_kept (rawPut_kept h))))
  · exact recordErr_kept (rawPut_kept h)
  · exact recordErr_kept (rawPut_kept h)
  · exact recordErr_kept (rawPut_kept h)
  · exact recordErr_kept (rawPut_kept h)
  · exact h

theorem keepGrans_kept {gs} (h : Kept s t) : Kept s (keepGrans gs t) := Kept.foldl h (fun _ _ h1 => rawPut_kept h1)
theorem localPut_kept {e x i g} (h : Kept s t) : Kept s (localPut e x i g t) := rawPut_kept h

theorem clearLocal_kept {e u} (h : Kept s t) : Kept s (clearLocal e u t) :=
  ⟨fun k => ⟨(h.mem k).1, wf_filter _ (h.mem k).2.1, wf_filter _ (h.mem k).2.2⟩, h.fuse, h.pending, h.off⟩

theorem setTask_kept {x} (h : Kept s t) : Kept s (setTask x t) := h.same rfl

theorem loadOpt_kept {a n} (h : Kept s t) : Kept s (loadOpt a n t).2 := by
  unfold loadOpt
  split
  · dsimp only
    exact loadBytes_kept h
  · exact h

theorem readRun_kept {k y} (h : Kept s t) (e : readRun k t = some y) : Kept s y.2 := by
  unfold readRun at e
  split at e
  · cases e
  · cases e
    exact loadOpt_kept (loadOpt_kept (loadBytes_kept h))

theorem fetchCode_kept {x r} (h : Kept s t) : Kept s (fetchCode x r t).2 := by
  unfold fetchCode
  dsimp only
  refine Kept.foldlPair h ?_
  intro _ _ h1
  dsimp only
  exact loadBytes_kept h1

theorem tileFault_kept {x instr row} (h : Kept s t) : Kept s (tileFault x instr row t) := faultTask_kept h
theorem noteClass_kept {x gd} (h : Kept s t) : Kept s (noteClass x gd t) := h.same rfl

theorem beginRun_kept {x r rung} (h : Kept s t) : Kept s (beginRun x r rung t) :=
  setTask_kept (fetchCode_kept (clearLocal_kept h))

theorem execTileRun_kept {e unit} (h : Kept s t) : KeptOut s (execTileRun e unit t) := by
  unfold execTileRun
  split
  · exact h
  · split
    · exact h
    · split
      · rename_i er _
        have hz := readRun_kept h er
        split
        · exact tileFault_kept hz
        · exact beginRun_kept (Kept.ite hz (noteClass_kept hz))
      · exact h

theorem countRun_kept {x r} (h : Kept s t) : Kept s (countRun x r t) := Kept.ite h (bump_kept h)
theorem endTask_kept {x} (h : Kept s t) : Kept s (endTask x t) := settleDefect_kept (updQueue_kept (dropTask_kept h))

theorem execTend_kept {e unit} (h : Kept s t) : KeptOut s (execTend e unit t) := by
  unfold execTend
  dsimp only
  split
  · exact h
  · split
    · exact Kept.ite (tileFault_kept h) (Kept.ite (tileFault_kept h) (Kept.ite h (Kept.ite h (Kept.ite h (endTask_kept
        (Kept.ite (bump_kept (countRun_kept h)) (countRun_kept h)))))))
    · exact h

theorem addCounts_kept {x x1 r c} (h : Kept s t) : Kept s (addCounts x x1 r c t) :=
  setTask_kept (bump_kept (bump_kept (bump_kept (bump_kept (bump_kept h)))))

theorem localPuts_kept {e u i gs} (h : Kept s t) : Kept s (localPuts e u i gs t) := by
  induction gs generalizing i t with
  | nil => exact h
  | cons g gs ih => exact ih (localPut_kept h)

theorem loadRows_kept {k r b n i c} (h : Kept s t) : Kept s (loadRows k r b n i c t).2 := by
  induction n generalizing i c t with
  | zero => exact h
  | succ n ih =>
    unfold loadRows
    dsimp only
    split
    · exact ih (localPuts_kept (loadGrans_kept h))
    · exact ih (localPuts_kept (loadGrans_kept h))

theorem fetchTile_kept {r rung b} (h : Kept s t) : Kept s (fetchTile r rung b t).2 := by
  unfold fetchTile
  dsimp only
  refine Kept.foldlPair h ?_
  intro _ _ h1
  dsimp only
  exact loadGrans_kept h1

theorem fetchAhead_kept {x r} (h : Kept s t) : Kept s (fetchAhead x r t).2 := by
  unfold fetchAhead
  dsimp only
  split
  · exact h
  · split
    · exact h
    · dsimp only
      exact fetchTile_kept h

theorem advance_kept {x} (h : Kept s t) : Kept s (advance x t) := by
  unfold advance
  dsimp only
  split
  · exact h
  · split
    · exact h
    · exact setTask_kept (fetchCode_kept (fetchAhead_kept h))

theorem noteStore_kept {x r rows} (h : Kept s t) : Kept s (noteStore x r rows t) := h.same rfl

theorem execLoad_kept {e unit errs} (h : Kept s t) : KeptOut s (execLoad e unit errs t) := by
  unfold execLoad
  dsimp only
  split
  · exact h
  · split
    · exact tileFault_kept h
    · exact advance_kept (addCounts_kept (keepGrans_kept (loadRows_kept (Kept.foldl h
        (fun _ _ h1 => applyMemErr_kept h1)))))
    · exact h

theorem storeRows_kept {k r b n i j} (h : Kept s t) : Kept s (storeRows k r b n i j t).2 := by
  induction n generalizing i j t with
  | zero => exact h
  | succ n ih => exact ih (putGrans_kept h)

theorem execStore_kept {e unit errs} (h : Kept s t) : KeptOut s (execStore e unit errs t) := by
  unfold execStore
  dsimp only
  split
  · exact h
  · split
    · exact tileFault_kept h
    · exact advance_kept (noteStore_kept (bump_kept (keepGrans_kept (Kept.foldl (storeRows_kept h)
        (fun _ _ h1 => applyMemErr_kept h1)))))
    · exact h

theorem vopRow_kept {x b i} (h : Kept s t) : Kept s (vopRow x b i t) :=
  Kept.ite (localPut_kept h) (Kept.foldl h (fun _ _ h1 => localPut_kept h1))

theorem execVop_kept {e unit} (h : Kept s t) : KeptOut s (execVop e unit t) := by
  unfold execVop
  split
  · exact h
  · split
    · exact tileFault_kept h
    · exact advance_kept (Kept.foldl h (fun _ _ h1 => vopRow_kept h1))

theorem mmaRow_kept {x b af tile i} (h : Kept s t) : Kept s (mmaRow x b af tile i t) :=
  Kept.foldl h (fun _ _ h1 => localPut_kept h1)

theorem noteFormat_kept {e q f kv a gs} (h : Kept s t) : Kept s (noteFormat e q f kv a gs t) :=
  Kept.foldl h (fun _ _ h1 => Kept.ite (recordErr_kept h1) h1)

theorem fenceUnit_kept {x} (h : Kept s t) : Kept s (fenceUnit x t) :=
  settleDefect_kept (updQueue_kept (dropTask_kept (recordErr_kept (h.same rfl))))

theorem takeTile_kept {x r b} (h : Kept s t) : Kept s (takeTile x r b t).2 := by
  unfold takeTile
  split
  · exact h
  · split
    · split
      · exact h
      · exact fetchTile_kept h
    · exact fetchTile_kept h

theorem noteFormats_kept {x r b tile rows} (h : Kept s t) : Kept s (noteFormats x r b tile rows t) :=
  Kept.foldl (Kept.ite h (Kept.foldl h (fun _ _ h1 => noteFormat_kept h1))) (fun _ _ h1 => noteFormat_kept h1)

theorem execMma_kept {e unit mismatches} (h : Kept s t) : KeptOut s (execMma e unit mismatches t) := by
  unfold execMma
  dsimp only
  split
  · exact h
  · split
    · exact tileFault_kept h
    · exact Kept.ite (fenceUnit_kept h) (advance_kept (setTask_kept (Kept.foldl (noteFormats_kept (takeTile_kept h))
        (fun _ _ h1 => mmaRow_kept h1))))

theorem countRepeat_kept {x cls rung first} (h : Kept s t) : Kept s (countRepeat x cls rung first t) := h.same rfl

theorem execTaskRepeat_kept {e unit} (h : Kept s t) : KeptOut s (execTaskRepeat e unit t) := by
  unfold execTaskRepeat
  dsimp only
  split
  · exact h
  · split
    · split
      · exact Kept.ite (beginRun_kept (updQueue_kept (countRepeat_kept (countRun_kept h)))) h
      · exact h
    · exact h

/-! ### Sys2Proof/Machine/Tier.lean -/

theorem servePieces_kept {first last remote coded far src dst n} (h : Kept s t) :
    Kept s (servePieces first last remote coded far src dst n t) :=
  h.same rfl

theorem countModes_kept {ctx modes} (h : Kept s t) : Kept s (countModes ctx modes t) :=
  Kept.foldl h (fun _ _ h1 => bump_kept h1)

theorem decodeImage_kept {ctx addr ents} (h : Kept s t) : Kept s (decodeImage ctx addr ents t).2 := by
  unfold decodeImage
  dsimp only
  refine Kept.foldlPair h ?_
  intro _ _ h1
  split
  · dsimp only
    exact countModes_kept h1
  · dsimp only
    exact recordErr_kept (bump_kept h1)

theorem loadRemote_kept {id ctx gen addr fuel n index} (h : Kept s t) :
    Kept s (loadRemote id ctx gen addr fuel n index t) := by
  induction fuel generalizing addr n index t with
  | zero => exact h
  | succ k ih => exact Kept.ite h (ih (issue_kept h))

theorem storeRemote_kept {o ctx gen addr fuel gs} (h : Kept s t) : Kept s (storeRemote o ctx gen addr fuel gs t) := by
  induction fuel generalizing addr gs t with
  | zero => exact h
  | succ k ih => exact Kept.ite h (ih (issue_kept h))

theorem updXfer_kept {id g} (h : Kept s t) : Kept s (updXfer id g t) := h.same rfl
theorem dropXfer_kept {id} (h : Kept s t) : Kept s (dropXfer id t) := h.same rfl

theorem newXfer_kept {use src dst len srcTcf round gen here} (h : Kept s t) :
    Kept s (newXfer use src dst len srcTcf round gen here t).2 :=
  h.same rfl

theorem noteFetch_kept {ctx dst gs} (h : Kept s t) : Kept s (noteFetch ctx dst gs t) :=
  Kept.ite h (Kept.foldl (emptyHot_kept h) (fun _ _ h1 => recordErr_kept h1))

theorem placeXfer_kept {use o dstRemote dstTcf gen dst gs} (h : Kept s t) :
    Kept s (placeXfer use o dstRemote dstTcf gen dst gs t) :=
  Kept.ite (storeRemote_kept (Kept.ite (countModes_kept h) h)) (noteFetch_kept (putGrans_kept (Kept.ite
    (countModes_kept h) h)))

theorem readLocal_kept {ctx src len srcTcf} (h : Kept s t) : Kept s (readLocal ctx src len srcTcf t).2 := by
  unfold readLocal
  dsimp only
  split
  · refine decodeImage_kept ?_
    refine Kept.foldlPair (loadGrans_kept h) ?_
    intro _ _ h1
    dsimp only
    split
    · exact loadGrans_kept h1
    · exact h1
  · exact loadGrans_kept h

theorem startRemote_kept {use gen src dst len srcTcf} (h : Kept s t) :
    Kept s (startRemote use gen src dst len srcTcf t) :=
  loadRemote_kept (newXfer_kept h)

theorem fetchedGrans_kept {x} (h : Kept s t) : Kept s (fetchedGrans x t).2 := by
  unfold fetchedGrans
  dsimp only
  split
  · exact decodeImage_kept h
  · exact h

theorem advanceXfer_kept {id place} (h : Kept s t) (hplace : ∀ y0 y1 u, Kept s u → Kept s (place y0 y1 u)) :
    Kept s (advanceXfer id place t) := by
  unfold advanceXfer
  dsimp only
  split
  · exact h
  · exact Kept.ite h (Kept.ite (Kept.ite (Kept.foldl (updXfer_kept h) (fun _ _ h1 => Kept.ite
      (loadRemote_kept h1) h1)) (hplace _ _ _ (updXfer_kept (fetchedGrans_kept (Kept.foldl (updXfer_kept h)
      (fun _ _ h1 => Kept.ite (loadRemote_kept h1) h1)))))) (hplace _ _ _ (updXfer_kept (fetchedGrans_kept h))))

theorem execCopy_kept {q} (h : Kept s t) : KeptOut s (execCopy q t) := by
  unfold execCopy
  dsimp only
  split
  · exact h
  · exact Kept.ite (startRemote_kept (servePieces_kept (markWorked_kept (bump_kept h)))) (placeXfer_kept
      (readLocal_kept (servePieces_kept (markWorked_kept (bump_kept h)))))

theorem execReplicate_kept {q} (h : Kept s t) : KeptOut s (execReplicate q t) := by
  unfold execReplicate
  dsimp only
  split
  · exact h
  · exact Kept.foldl (loadGrans_kept (markWorked_kept (bump_kept h))) (fun _ _ h1 => putGrans_kept
      (servePieces_kept h1))

theorem silenceSchedule_kept {ctx prog} (h : Kept s t) : Kept s (silenceSchedule ctx prog t) := h.same rfl

theorem execSchedule_kept {q} (h : Kept s t) : KeptOut s (execSchedule q t) := by
  unfold execSchedule
  split
  · exact h
  · split
    · exact h
    · split
      · exact silenceSchedule_kept (updProg_kept (markWorked_kept h))
      · split
        · exact faultQueue_kept h
        · exact silenceSchedule_kept (updProg_kept (markWorked_kept h))

theorem updSchedule_kept {ctx prog g} (h : Kept s t) : Kept s (updSchedule ctx prog g t) := h.same rfl

theorem holdEntry_kept {ctx prog i served} (h : Kept s t) : Kept s (holdEntry ctx prog i served t) := by
  unfold holdEntry
  split
  · exact Kept.ite h (bump_kept (updSchedule_kept h))
  · exact h

theorem startEntry_kept {ctx prog i served e} (h : Kept s t) : Kept s (startEntry ctx prog i served e t) :=
  Kept.ite (startRemote_kept (servePieces_kept (bump_kept (updSchedule_kept (Kept.ite (bump_kept h) h)))))
    (newXfer_kept (putGrans_kept (readLocal_kept (servePieces_kept (bump_kept (updSchedule_kept (Kept.ite
    (bump_kept h) h)))))))

theorem execScheduleIssue_kept {ctx program entry} (h : Kept s t) :
    KeptOut s (execScheduleIssue ctx program entry t) := by
  unfold execScheduleIssue
  dsimp only
  split
  · exact h
  · split
    · exact h
    · split
      · exact Kept.ite (Kept.ite (holdEntry_kept h) (startEntry_kept (Kept.ite h (bump_kept h)))) h
      · exact h

theorem execScheduleTransferDone_kept {xfer} (h : Kept s t) : KeptOut s (execScheduleTransferDone xfer t) := by
  unfold execScheduleTransferDone
  dsimp only
  split
  · exact h
  · split
    · exact h
    · split
      · split
        · exact h
        · split
          · exact dropXfer_kept h
          · exact Kept.ite (dropXfer_kept h) (Kept.ite (dropXfer_kept (bump_kept h)) (Kept.ite (dropXfer_kept
              (signalEvent_kept h)) (updXfer_kept h)))
      · exact h

/-! ### Sys2Proof/Machine/Kv.lean -/

theorem peck_kept {a} (h : Kept s t) : Kept s (peck a t).2.2 := by
  unfold peck
  dsimp only
  split
  · exact bump_kept h
  · exact loadBytes_kept h

theorem peckGrans_kept {n a} (h : Kept s t) : Kept s (peckGrans n a t).2 := by
  induction n generalizing a t with
  | zero => exact h
  | succ n ih =>
    unfold peckGrans
    dsimp only
    refine ih ?_
    split
    · exact bump_kept h
    · exact loadGran_kept h

theorem pageAt_kept {p dir page} (h : Kept s t) : Kept s (pageAt p dir page t).2 := by
  unfold pageAt
  dsimp only
  split
  · dsimp only
    exact peck_kept h
  · split
    · dsimp only
      exact peck_kept (peck_kept h)
    · dsimp only
      exact peck_kept h

theorem putLeaf_kept {a e} (h : Kept s t) : Kept s (putLeaf a e t) := putBytes_kept h
theorem clearTable_kept {a} (h : Kept s t) : Kept s (clearTable a t) := putGrans_kept h
theorem updPool_kept {ctx g} (h : Kept s t) : Kept s (updPool ctx g t) := h.same rfl
theorem freeFrame_kept {ctx n} (h : Kept s t) : Kept s (freeFrame ctx n t) := h.same rfl
theorem freeSpill_kept {ctx n} (h : Kept s t) : Kept s (freeSpill ctx n t) := h.same rfl

theorem loseKv_kept {slot cause} (h : Kept s t) : Kept s (loseKv slot cause t) := by
  unfold loseKv
  dsimp only
  split
  · exact Kept.ite h (recordErr_kept (bump_kept (updStream_kept h)))
  · exact h

theorem checkTables_kept {ctx slots} (h : Kept s t) : Kept s (checkTables ctx slots t) := by
  unfold checkTables
  split
  · exact h
  · refine Kept.foldl h ?_
    intro _ _ h1
    split
    · split
      · exact Kept.ite (loseKv_kept h1) h1
      · exact h1
    · exact h1

theorem putPlace_kept {o ctx remote a gs} (h : Kept s t) : Kept s (putPlace o ctx remote a gs t) :=
  Kept.ite (storeRemote_kept h) (putGrans_kept h)

theorem writeParts_kept {o ctx c p frame slot} (h : Kept s t) : Kept s (writeParts o ctx c p frame slot t).2 := by
  unfold writeParts
  dsimp only
  refine Kept.foldl ?_ ?_
  · split
    · refine bump_kept ?_
      refine Kept.foldlPair h ?_
      intro _ _ h1
      dsimp only
      exact loadGrans_kept h1
    · refine Kept.foldlPair h ?_
      intro _ _ h1
      dsimp only
      exact loadGrans_kept h1
  · intro _ _ h1
    split
    · exact putPlace_kept (putPlace_kept (countModes_kept h1))
    · exact putPlace_kept h1

theorem spillPage_kept {ctx c p x} (h : Kept s t) : Kept s (spillPage ctx c p x t) := by
  unfold spillPage
  dsimp only
  split
  · exact bump_kept (bump_kept (freeFrame_kept (putLeaf_kept h)))
  · split
    · exact h
    · exact putLeaf_kept (writeParts_kept (newXfer_kept (updPool_kept h)))

theorem spillDown_kept {ctx fuel} (h : Kept s t) : Kept s (spillDown ctx fuel t) := by
  induction fuel generalizing t with
  | zero => exact h
  | succ k ih =>
    unfold spillDown
    split
    · exact h
    · split
      · exact h
      · refine Kept.ite h ?_
        split
        · exact h
        · exact Kept.ite h (ih (spillPage_kept h))

theorem spillRun_kept {ctx c p} (h : Kept s t) : Kept s (spillRun ctx c p t) :=
  updPool_kept (spillDown_kept (checkTables_kept h))

theorem execKvSpill_kept {ctx} (h : Kept s t) : KeptOut s (execKvSpill ctx t) := by
  unfold execKvSpill
  split
  · exact h
  · split
    · exact h
    · split
      · exact h
      · exact Kept.ite (spillRun_kept h) h

theorem fetchPart_kept {id ctx remote gen base part i n p} (h : Kept s t) :
    Kept s (fetchPart id ctx remote gen base part i n p t) :=
  Kept.ite (loadRemote_kept h) (updXfer_kept (loadGrans_kept h))

theorem fetchGroups_kept {id ctx p} (h : Kept s t) : Kept s (fetchGroups id ctx p t) := by
  unfold fetchGroups
  dsimp only
  split
  · exact h
  · exact Kept.foldl h (fun _ _ h1 => Kept.foldl h1 (fun _ _ h2 => Kept.ite (fetchPart_kept h2) h2))

theorem advanceReturn_kept {id} (h : Kept s t) : Kept s (advanceReturn id t) := by
  unfold advanceReturn
  dsimp only
  split
  · exact h
  · split
    · split
      · exact h
      · exact Kept.ite h (Kept.ite (Kept.ite (fetchGroups_kept (updXfer_kept h)) (updXfer_kept (fetchGroups_kept
          (updXfer_kept h)))) (updXfer_kept h))
    · exact h

theorem takeFrame_kept {ctx fuel} (h : Kept s t) : Kept s (takeFrame ctx fuel t).2 := by
  induction fuel generalizing t with
  | zero => exact h
  | succ k ih =>
    unfold takeFrame
    split
    · exact h
    · split
      · exact h
      · split
        · exact updPool_kept h
        · split
          · exact h
          · split
            · exact h
            · dsimp only
              split
              · exact checkTables_kept h
              · split
                · exact checkTables_kept h
                · exact ih (spillPage_kept (checkTables_kept h))

theorem startReturn_kept {ctx dir page gen} (h : Kept s t) : Kept s (startReturn ctx dir page gen t) := by
  unfold startReturn
  dsimp only
  split
  · exact h
  · split
    · exact h
    · split
      · rename_i z2 e3
        have h1 : Kept s z2 := Kept.ofEq e3 (pageAt_kept h)
        split
        · exact h1
        · split
          · rename_i z4 e4
            have h2 : Kept s z4 := Kept.ofEq e4 (takeFrame_kept h1)
            exact advanceReturn_kept (advanceReturn_kept (Kept.foldl (newXfer_kept (putLeaf_kept h2))
              (fun _ _ h3 => Kept.ite (fetchPart_kept h3) (fetchPart_kept h3))))
          · rename_i z4 _ e5
            have h2 : Kept s z4 := Kept.ofEq e5 (takeFrame_kept h1)
            exact h2
      · rename_i z2 _ e4
        have h1 : Kept s z2 := Kept.ofEq e4 (pageAt_kept h)
        exact h1

theorem tickReturns_kept {ctx} (h : Kept s t) : Kept s (tickReturns ctx t) := by
  unfold tickReturns
  refine Kept.foldl (checkTables_kept h) ?_
  intro _ _ h1
  split
  · split
    · refine Kept.foldl h1 ?_
      intro _ _ h2
      split
      · exact Kept.ite (startReturn_kept h2) h2
      · exact h2
    · exact h1
  · exact h1

theorem lostTable_kept {ctx dir r} (h : Kept s t) : Kept s (lostTable ctx dir r t) := by
  unfold lostTable
  split
  · split
    · exact loseKv_kept h
    · exact h
  · exact h

theorem returnedParts_kept {ctx x n} (h : Kept s t) : Kept s (returnedParts ctx x n t).2 := by
  unfold returnedParts
  refine Kept.foldlPair h ?_
  intro _ _ h1
  dsimp only
  split
  · dsimp only
    exact decodeImage_kept h1
  · exact h1

theorem execKvReturnDone_kept {ctx dirSlot page} (h : Kept s t) :
    KeptOut s (execKvReturnDone ctx dirSlot page t) := by
  unfold execKvReturnDone
  dsimp only
  split
  · exact h
  · split
    · exact h
    · split
      · exact h
      · split
        · exact h
        · split
          · exact freeSpill_kept (freeFrame_kept (dropXfer_kept h))
          · split
            · rename_i z2 e3
              have h1 : Kept s z2 := Kept.ofEq e3 (pageAt_kept h)
              split
              · split
                · exact loseKv_kept (freeFrame_kept (putLeaf_kept (returnedParts_kept (dropXfer_kept h1))))
                · exact freeFrame_kept (putLeaf_kept (returnedParts_kept (dropXfer_kept h1)))
              · exact bump_kept (putLeaf_kept (Kept.foldl (returnedParts_kept (dropXfer_kept h1))
                  (fun _ _ h2 => putGrans_kept h2)))
            · rename_i z2 _ e4
              have h1 : Kept s z2 := Kept.ofEq e4 (pageAt_kept h)
              exact freeFrame_kept (dropXfer_kept (lostTable_kept h1))

theorem freeKv_kept {slot} (h : Kept s t) : Kept s (freeKv slot t) := by
  unfold freeKv
  dsimp only
  split
  · exact h
  · split
    · refine updStream_kept ?_
      refine updPool_kept ?_
      refine setFab_kept ?_
      refine Kept.foldl h ?_
      intro _ _ h1
      split
      · exact Kept.ite (freeSpill_kept (Kept.ite (freeFrame_kept h1) h1)) (Kept.ite (freeFrame_kept h1) h1)
      · exact h1
    · exact updStream_kept h

theorem commitKv_kept {slot len} (h : Kept s t) : Kept s (commitKv slot len t) := by
  unfold commitKv
  dsimp only
  split
  · exact h
  · split
    · refine updStream_kept ?_
      refine Kept.foldl h ?_
      intro _ _ h1
      split
      · rename_i z2 e4
        have h2 : Kept s z2 := Kept.ofEq e4 (pageAt_kept h1)
        exact Kept.ite (bump_kept (putLeaf_kept h2)) h2
      · rename_i z2 e4
        have h2 : Kept s z2 := Kept.ofEq e4 (pageAt_kept h1)
        exact loseKv_kept h2
      · rename_i z2 e4
        have h2 : Kept s z2 := Kept.ofEq e4 (pageAt_kept h1)
        exact h2
    · exact h

theorem faultPoison_kept {e q} (h : Kept s t) : Kept s (faultPoison e q t) := by
  unfold faultPoison
  dsimp only
  split
  · exact h
  · exact finishStarts_kept (recordErr_kept (setQueue_kept h))

theorem execKvPoolInit_kept {q} (h : Kept s t) : KeptOut s (execKvPoolInit q t) := by
  unfold execKvPoolInit
  dsimp only
  split
  · exact h
  · exact Kept.ite (faultPoison_kept (loadBytes_kept h)) (Kept.ite (faultQueue_kept (loadBytes_kept h)) (updPool_kept
      (updCtx_kept (markWorked_kept (loadBytes_kept h)))))

theorem homePage_kept {ctx slot page} (h : Kept s t) : Kept s (homePage ctx slot page t).2 := by
  unfold homePage
  split
  · split
    rename_i d z e
    have hz : Kept s z := by
      refine Kept.ofEq e ?_
      split
      · exact h
      · split
        · dsimp only
          exact clearTable_kept (updStream_kept (updPool_kept h))
        · exact h
    split
    · exact hz
    · split
      rename_i r w e
      have hw : Kept s w := by
        refine Kept.ofEq e ?_
        split
        · rename_i e
          have hp := Kept.ofEq e (pageAt_kept hz)
          split
          · exact putBytes_kept (clearTable_kept (updPool_kept hp))
          · exact hp
        · rename_i e
          have hp := Kept.ofEq e (pageAt_kept hz)
          exact hp
      split
      · exact hw
      · split
        · split
          · rename_i e
            exact putLeaf_kept (Kept.ofEq e (takeFrame_kept hw))
          · exact takeFrame_kept hw
        · split
          · exact hw
          · exact hw
      · exact hw
  · exact h

theorem appendRow_kept {p layer src frame slot pos} (h : Kept s t) :
    Kept s (appendRow p layer src frame slot pos t) :=
  Kept.ite (updStream_kept (Kept.foldlPair h (fun _ _ h1 => putGrans_kept (putGrans_kept (loadGrans_kept
    (loadGrans_kept h1)))))) (Kept.foldlPair h (fun _ _ h1 => putGrans_kept (putGrans_kept (loadGrans_kept
    (loadGrans_kept h1)))))

theorem homePages_kept {ctx slot pages} (h : Kept s t) : Kept s (homePages ctx slot pages t).2 := by
  induction pages generalizing t with
  | nil => exact h
  | cons n r ih =>
    unfold homePages
    split
    · rename_i e
      exact ih (Kept.ofEq e (homePage_kept h))
    · exact homePage_kept h

theorem appendSlot_kept {ctx p layer src rstr rs} (h : Kept s t) :
    Kept s (appendSlot ctx p layer src rstr rs t).2 := by
  unfold appendSlot
  dsimp only
  split
  · exact h
  · split
    · exact h
    · split
      · rename_i z2 e3
        have h1 : Kept s z2 := Kept.ofEq e3 (homePages_kept h)
        exact h1
      · rename_i z2 e3
        have h1 : Kept s z2 := Kept.ofEq e3 (homePages_kept h)
        dsimp only
        exact loseKv_kept h1
      · rename_i z2 e3
        have h1 : Kept s z2 := Kept.ofEq e3 (homePages_kept h)
        dsimp only
        refine Kept.foldl h1 ?_
        intro _ _ h2
        split
        · rename_i z4 e4
          have h3 : Kept s z4 := Kept.ofEq e4 (homePage_kept h2)
          exact appendRow_kept h3
        · rename_i z4 _ e5
          have h3 : Kept s z4 := Kept.ofEq e5 (homePage_kept h2)
          exact h3

theorem appendRows_kept {ctx p layer src rstr rows} (h : Kept s t) :
    Kept s (appendRows ctx p layer src rstr rows t).2 := by
  induction rows generalizing t with
  | nil => exact h
  | cons x r ih =>
    unfold appendRows
    split
    · rename_i e
      exact Kept.ofEq e (appendSlot_kept h)
    · rename_i e
      exact ih (Kept.ofEq e (appendSlot_kept h))

theorem appendEffect_kept {q x c p} (h : Kept s t) : Kept s (appendEffect q x c p t) := by
  unfold appendEffect
  split
  · rename_i z2 e1
    have h1 : Kept s z2 := Kept.ofEq e1 (appendRows_kept h)
    exact h1
  · rename_i z2 e1
    have h1 : Kept s z2 := Kept.ofEq e1 (appendRows_kept h)
    exact markWorked_kept h1

theorem withPool_kept {q opcode k} (h : Kept s t) (hk : ∀ y0 y1 y2 u, Kept s u → Kept s (k y0 y1 y2 u)) :
    KeptOut s (withPool q opcode t k) := by
  unfold withPool
  split
  · exact h
  · split
    · exact h
    · exact hk _ _ _ _ h

theorem execKvAppend_kept {q} (h : Kept s t) : KeptOut s (execKvAppend q t) :=
  withPool_kept h (fun _ _ _ _ h1 => appendEffect_kept h1)

theorem readRow_kept {v n a} (h : Kept s t) : Kept s (readRow v n a t).2 := by
  unfold readRow
  split
  · exact peckGrans_kept h
  · exact loadGrans_kept h

theorem gatherRow_kept {p q layer head pos g} (h : Kept s t) : Kept s (gatherRow p q layer head pos g t).2 := by
  unfold gatherRow
  dsimp only
  split
  · dsimp only
    exact noteFormat_kept (readRow_kept (readRow_kept h))
  · exact h

theorem imageRecord_kept {p q layer head chunk dmax first g} (h : Kept s t) :
    Kept s (imageRecord p q layer head chunk dmax first g t).2 := by
  unfold imageRecord
  dsimp only
  split
  · exact h
  · dsimp only
    refine Kept.foldlPair h ?_
    intro _ _ h1
    dsimp only
    exact gatherRow_kept h1

theorem markLate_kept {ctx dir page} (h : Kept s t) : Kept s (markLate ctx dir page t) := by
  unfold markLate
  split
  · exact Kept.ite h (bump_kept (updXfer_kept h))
  · exact h

theorem awaitPages_kept {ctx p cc chunk rs} (h : Kept s t) : Kept s (awaitPages ctx p cc chunk rs t).2 := by
  unfold awaitPages
  split
  · refine Kept.foldlPair h ?_
    intro _ _ h1
    split
    · split
      · dsimp only
        exact markLate_kept (startReturn_kept h1)
      · split
        · dsimp only
          exact markLate_kept h1
        · exact h1
    · exact h1
  · exact h

theorem gatherSlot_kept {x q p c dmax x1} (h : Kept s t) : Kept s (gatherSlot x q p c dmax x1 t) := by
  unfold gatherSlot
  dsimp only
  refine Kept.foldl ?_ (fun _ _ h1 => Kept.foldl h1 (fun _ _ h2 => putGrans_kept (imageRecord_kept h2)))
  split
  · exact Kept.ite (recordErr_kept (bump_kept (Kept.ite (loseKv_kept h) h))) (Kept.ite (loseKv_kept h) h)
  · exact h

theorem gatherEffect_kept {q x c p} (h : Kept s t) : Kept s (gatherEffect q x c p t) := by
  unfold gatherEffect
  dsimp only
  split
  · refine Kept.foldlPair h ?_
    intro _ _ h1
    dsimp only
    exact awaitPages_kept h1
  · refine markWorked_kept ?_
    refine Kept.foldl ?_ (fun _ _ h1 => gatherSlot_kept h1)
    refine Kept.foldlPair h ?_
    intro _ _ h1
    dsimp only
    exact awaitPages_kept h1

theorem execKvGather_kept {q} (h : Kept s t) : KeptOut s (execKvGather q t) :=
  withPool_kept h (fun _ _ _ _ h1 => gatherEffect_kept h1)

theorem takeGran_kept (h : Kept s t) : Kept s (takeGran t).2 := h.same rfl

theorem allHome_kept {ctx p dir len} (h : Kept s t) : Kept s (allHome ctx p dir len t).2 := by
  unfold allHome
  refine Kept.foldlPair h ?_
  intro _ _ h1
  split
  · split
    · dsimp only
      exact startReturn_kept h1
    · split <;> exact h1
  · exact h1

theorem freeEntries_kept {p frame pos} (h : Kept s t) : Kept s (freeEntries p frame pos t) :=
  Kept.foldl h (fun _ _ h1 => Kept.foldl (Kept.foldl h1 (fun _ _ h2 => putGran_kept (takeGran_kept h2)))
    (fun _ _ h2 => putGran_kept (takeGran_kept h2)))

theorem prefillKv_kept {ctx slot len} (h : Kept s t) : Kept s (prefillKv ctx slot len t).2 := by
  unfold prefillKv
  dsimp only
  split
  · split
    · rename_i z2 e3
      have h1 : Kept s z2 := Kept.ofEq e3 (homePages_kept h)
      exact h1
    · rename_i z2 e3
      have h1 : Kept s z2 := Kept.ofEq e3 (homePages_kept h)
      dsimp only
      exact loseKv_kept h1
    · rename_i z2 e3
      have h1 : Kept s z2 := Kept.ofEq e3 (homePages_kept h)
      dsimp only
      refine commitKv_kept ?_
      refine Kept.foldl h1 ?_
      intro _ _ h2
      split
      · rename_i z4 e4
        have h3 : Kept s z4 := Kept.ofEq e4 (homePage_kept h2)
        exact freeEntries_kept h3
      · rename_i z4 _ e5
        have h3 : Kept s z4 := Kept.ofEq e5 (homePage_kept h2)
        exact h3
  · exact h

theorem storePages_kept {ctx slot pages} (h : Kept s t) : Kept s (storePages ctx slot pages t).2 := by
  induction pages generalizing t with
  | nil => exact h
  | cons x r ih =>
    obtain ⟨gs, n⟩ := x
    unfold storePages
    split
    · exact h
    · split
      · rename_i e
        exact ih (Kept.foldl (Kept.ofEq e (homePage_kept h)) fun _ _ h => putGrans_kept h)
      · rename_i e
        exact Kept.ofEq (p := homePage ctx slot n t) e (homePage_kept h)

theorem takePages_kept {x} (h : Kept s t) : Kept s (takePages x t) := by
  unfold takePages
  dsimp only
  split
  · exact emit_kept h
  · split
    · rename_i z2 e2
      have h1 : Kept s z2 := Kept.ofEq e2 (storePages_kept h)
      exact updStream_kept (commitKv_kept h1)
    · rename_i z2 e2
      have h1 : Kept s z2 := Kept.ofEq e2 (storePages_kept h)
      exact h1.same rfl
    · rename_i z2 e2
      have h1 : Kept s z2 := Kept.ofEq e2 (storePages_kept h)
      exact emit_kept (freeKv_kept (updStream_kept h1))

theorem retryHandovers_kept {ctx} (h : Kept s t) : Kept s (retryHandovers ctx t) :=
  Kept.foldl (h.same rfl) (fun _ _ h1 => takePages_kept h1)

theorem execKvHandover_kept {srcDev stream layoutId tokens fed pages} (h : Kept s t) :
    KeptOut s (execKvHandover srcDev stream layoutId tokens fed pages t) := by
  unfold execKvHandover
  split
  · exact emit_kept h
  · exact Kept.ite (emit_kept h) (takePages_kept h)

theorem execKvSpillDone_kept {ctx dirSlot page} (h : Kept s t) : KeptOut s (execKvSpillDone ctx dirSlot page t) := by
  unfold execKvSpillDone
  dsimp only
  split
  · exact h
  · split
    · exact h
    · split
      · split
        · exact h
        · refine tickReturns_kept ?_
          refine retryHandovers_kept ?_
          split
          · exact freeSpill_kept (freeFrame_kept (dropXfer_kept h))
          · split
            · rename_i z2 e4
              have h1 : Kept s z2 := Kept.ofEq e4 (pageAt_kept (dropXfer_kept h))
              exact Kept.ite (freeSpill_kept (recordErr_kept (putLeaf_kept h1))) (bump_kept (freeFrame_kept
                (putLeaf_kept h1)))
            · rename_i z2 _ e5
              have h1 : Kept s z2 := Kept.ofEq e5 (pageAt_kept (dropXfer_kept h))
              exact freeSpill_kept (freeFrame_kept (lostTable_kept h1))
      · exact h

/-! ### Sys2Proof/Machine/Gen.lean -/

theorem bumpStream_kept {x index n} (h : Kept s t) : Kept s (bumpStream x index n t) := h.same rfl
theorem bumpWeights_kept {ctx index n} (h : Kept s t) : Kept s (bumpWeights ctx index n t) := h.same rfl

theorem readConsumer_kept {slot} (h : Kept s t) : Kept s (readConsumer slot t) := by
  unfold readConsumer
  dsimp only
  split
  · exact Kept.ite (updStream_kept h) h
  · exact h

theorem writeToken_kept {slot token pos flags step} (h : Kept s t) :
    Kept s (writeToken slot token pos flags step t) := by
  unfold writeToken
  dsimp only
  split
  · exact updStream_kept (hostWrite_kept h)
  · exact h

theorem answerHandover_kept {slot} (h : Kept s t) : Kept s (answerHandover slot t) := by
  unfold answerHandover
  split
  · exact emit_kept (updStream_kept h)
  · exact h

theorem finalRecord_kept {slot stop} (h : Kept s t) : Kept s (finalRecord slot stop t) := by
  unfold finalRecord
  split
  · exact Kept.ite h (answerHandover_kept (updStream_kept (writeToken_kept h)))
  · exact h

theorem emitStep_kept {slot toks replayed} (h : Kept s t) : Kept s (emitStep slot toks replayed t) := by
  unfold emitStep
  dsimp only
  split
  · exact h
  · exact bumpStream_kept (bumpStream_kept (updStream_kept (Kept.foldl h (fun _ _ h1 => writeToken_kept h1))))

theorem readHostDraft_kept {slot} (h : Kept s t) : Kept s (readHostDraft slot t) := by
  unfold readHostDraft
  dsimp only
  split
  · exact updStream_kept h
  · exact h

theorem countMask_kept {slot reason} (h : Kept s t) : Kept s (countMask slot reason t) := by
  unfold countMask
  dsimp only
  split
  · exact h
  · exact Kept.ite (postEvent_kept (updStream_kept (Kept.ite h (bumpStream_kept (updStream_kept h))))) (Kept.ite
      (updStream_kept (Kept.ite h (bumpStream_kept (updStream_kept h)))) (Kept.ite h (bumpStream_kept
      (updStream_kept h))))

theorem prepSlot_kept {b main idx x} (h : Kept s t) : Kept s (prepSlot b main idx x t).2 := by
  unfold prepSlot
  dsimp only
  split
  · exact h
  · split
    · exact h
    · split
      · split
        · dsimp only
          exact countMask_kept h
        · dsimp only
          exact bumpStream_kept (Kept.ite (bumpStream_kept (updStream_kept h)) (updStream_kept h))
      · split
        · dsimp only
          exact countMask_kept h
        · dsimp only
          exact bumpStream_kept (Kept.ite (bumpStream_kept (updStream_kept h)) (updStream_kept h))

theorem execStepPrep_kept {q} (h : Kept s t) : KeptOut s (execStepPrep q t) := by
  unfold execStepPrep
  dsimp only
  split
  · exact h
  · refine putGran_kept ?_
    refine putGrans_kept ?_
    refine Kept.foldlPair (markWorked_kept h) ?_
    intro _ _ h1
    dsimp only
    exact prepSlot_kept h1

theorem logitsRow_kept {c r} (h : Kept s t) : Kept s (logitsRow c r t).2.2 := loadGrans_kept h

theorem verify_kept {c x first drafts fuel j recent} (h : Kept s t) :
    Kept s (verify c x first drafts fuel j recent t).2 := by
  induction fuel generalizing j recent t with
  | zero => exact h
  | succ k ih =>
    unfold verify
    dsimp only
    split
    · exact logitsRow_kept h
    · split
      · split
        · exact logitsRow_kept h
        · exact ih (logitsRow_kept h)
      · exact logitsRow_kept h

theorem countNans_kept {n} (h : Kept s t) : Kept s (countNans n t) := h.same rfl

theorem noteDegenerate_kept {x q n} (h : Kept s t) : Kept s (noteDegenerate x q n t) :=
  Kept.foldl h (fun _ _ h1 => recordErr_kept (bumpStream_kept h1))

theorem affectStream_kept {x} (h : Kept s t) : Kept s (affectStream x t) := h.same rfl

theorem sampleSlot_kept {c q b rows x} (h : Kept s t) : Kept s (sampleSlot c q b rows x t).2 := by
  unfold sampleSlot
  dsimp only
  split
  · exact h
  · split
    · exact h
    · split
      · exact h
      · split
        · dsimp only
          exact finalRecord_kept (updStream_kept h)
        · split
          · exact h
          · split
            · dsimp only
              exact affectStream_kept h
            · split
              · exact h
              · split
                · split
                  · dsimp only
                    exact affectStream_kept (verify_kept (bumpWeights_kept h))
                  · dsimp only
                    exact updStream_kept (bumpStream_kept (bumpStream_kept (commitKv_kept (emitStep_kept
                      (noteDegenerate_kept (countNans_kept (verify_kept (bumpWeights_kept h))))))))
                · split
                  · dsimp only
                    exact affectStream_kept (verify_kept h)
                  · dsimp only
                    exact updStream_kept (bumpStream_kept (commitKv_kept (emitStep_kept (noteDegenerate_kept
                      (countNans_kept (verify_kept h))))))

theorem draftSlot_kept {c q b rows x} (h : Kept s t) : Kept s (draftSlot c q b rows x t) := by
  unfold draftSlot
  dsimp only
  split
  · exact Kept.ite h (Kept.ite (logitsRow_kept h) (updStream_kept (noteDegenerate_kept (countNans_kept
      (logitsRow_kept h)))))
  · exact h

theorem execSample_kept {q} (h : Kept s t) : KeptOut s (execSample q t) := by
  unfold execSample
  dsimp only
  split
  · exact h
  · split
    · exact markWorked_kept h
    · split
      · exact Kept.foldl (markWorked_kept h) (fun _ _ h1 => draftSlot_kept h1)
      · split
        · refine signalVector_kept ?_
          refine Kept.foldlPair (markWorked_kept h) ?_
          intro _ _ h1
          dsimp only
          exact sampleSlot_kept h1
        · refine Kept.foldlPair (markWorked_kept h) ?_
          intro _ _ h1
          dsimp only
          exact sampleSlot_kept h1

theorem endStream_kept {slot stop} (h : Kept s t) : Kept s (endStream slot stop t) := by
  unfold endStream
  dsimp only
  split
  · exact h
  · exact setStreams_kept (Kept.foldl (freeKv_kept (answerHandover_kept (finalRecord_kept h)))
      (fun _ _ h1 => setCounter_kept (bump_kept h1)))

/-! ### Sys2Proof/Machine/Route.lean -/

theorem routeBump_kept {ctx layer index n} (h : Kept s t) : Kept s (routeBump ctx layer index n t) := h.same rfl

theorem groupRows_kept {c d} (h : Kept s t) : Kept s (groupRows c d t).2 := by
  unfold groupRows
  dsimp only
  split
  · dsimp only
    exact loadBytes_kept h
  · exact h

theorem scoreRow_kept {c d x} (h : Kept s t) : Kept s (scoreRow c d x t).2 := loadGrans_kept h

theorem withLrd_kept {q opcode k} (h : Kept s t) (hk : ∀ y0 y1 y2 u, Kept s u → Kept s (k y0 y1 y2 u)) :
    KeptOut s (withLrd q opcode t k) := by
  unfold withLrd
  dsimp only
  split
  · exact h
  · exact Kept.ite (faultPoison_kept (loadBytes_kept h)) (Kept.ite (faultQueue_kept (loadBytes_kept h)) (hk _ _ _ _
      (markWorked_kept (loadBytes_kept h))))

theorem routeSelectEffect_kept {x c d} (h : Kept s t) : Kept s (routeSelectEffect x c d t) := by
  unfold routeSelectEffect
  dsimp only
  refine Kept.foldl ?_ (fun _ _ h1 => putGrans_kept h1)
  refine Kept.foldl ?_ (fun _ _ h1 => putGrans_kept (loadGrans_kept h1))
  refine putGrans_kept ?_
  refine routeBump_kept ?_
  refine routeBump_kept ?_
  refine routeBump_kept ?_
  refine routeBump_kept ?_
  refine routeBump_kept ?_
  refine Kept.foldlPair (Kept.ite (groupRows_kept h) (routeBump_kept (recordErr_kept (groupRows_kept h)))) ?_
  intro _ _ h1
  dsimp only
  exact scoreRow_kept h1

theorem execRouteSelect_kept {q} (h : Kept s t) : KeptOut s (execRouteSelect q t) :=
  withLrd_kept h (fun _ _ _ _ h1 => routeSelectEffect_kept h1)

theorem settlePins_kept (h : Kept s t) : Kept s (settlePins t) := by
  unfold settlePins
  refine Kept.foldl h ?_
  intro _ _ h1
  split
  · split
    · exact Kept.ite (finishOk_kept h1) h1
    · exact h1
  · exact h1

theorem landCopy_kept {ctx q cmd} (h : Kept s t) : Kept s (landCopy ctx q cmd t) := settlePins_kept (updCtx_kept h)

theorem routePlanEffect_kept {x c d} (h : Kept s t) : Kept s (routePlanEffect x c d t) := by
  unfold routePlanEffect
  extract_lets lay epp msgs rejected blank a counts lens fr plan plan' missing pins wanting needed hits
  have ha : Kept s a := Kept.foldl h fun _ _ h => recordErr_kept h
  clear_value a
  split
  extract_lets o misses o' final pool b z w
  have hz : Kept s z := by
    refine Kept.foldl (updCtx_kept ha) fun _ _ h => ?_
    split
    · exact Kept.foldl h fun _ _ h => putGran_kept h
    · exact h
  clear_value z
  have hw : Kept s w := routeBump_kept (routeBump_kept (routeBump_kept (routeBump_kept
    (routeBump_kept (routeBump_kept (routeBump_kept (routeBump_kept (bump_kept hz))))))))
  exact settlePins_kept (Kept.ite (requestSlip_kept (routeBump_kept hw)) hw)

theorem execRoutePlan_kept {q} (h : Kept s t) : KeptOut s (execRoutePlan q t) :=
  withLrd_kept h (fun _ _ _ _ h1 => routePlanEffect_kept h1)

theorem routeScatterEffect_kept {x x1 d} (h : Kept s t) : Kept s (routeScatterEffect x x1 d t) := by
  unfold routeScatterEffect
  dsimp only
  split
  · exact h
  · refine Kept.foldl h ?_
    intro _ _ h1
    refine Kept.foldl h1 ?_
    intro _ _ h2
    split
    · exact Kept.foldl (loadGrans_kept h2) (fun _ _ h3 => putGrans_kept h3)
    · exact h2

theorem execRouteScatter_kept {q} (h : Kept s t) : KeptOut s (execRouteScatter q t) :=
  withLrd_kept h (fun _ _ _ _ h1 => routeScatterEffect_kept h1)

theorem outputRow_kept {d slot pos} (h : Kept s t) : Kept s (outputRow d slot pos t).2 := by
  unfold outputRow
  dsimp only
  split
  · refine Kept.foldlPair h ?_
    intro _ _ h1
    dsimp only
    exact loadGrans_kept h1
  · exact loadGrans_kept h

theorem routeGatherEffect_kept {x x1 d} (h : Kept s t) : Kept s (routeGatherEffect x x1 d t) := by
  unfold routeGatherEffect
  dsimp only
  split
  · exact h
  · refine Kept.foldl h ?_
    intro _ _ h1
    refine Kept.foldl (putGrans_kept h1) ?_
    intro _ _ h2
    split
    · exact Kept.ite (bumpWeights_kept (putGrans_kept h2)) (putGrans_kept (outputRow_kept h2))
    · exact h2

theorem execRouteGather_kept {q} (h : Kept s t) : KeptOut s (execRouteGather q t) :=
  withLrd_kept h (fun _ _ _ _ h1 => routeGatherEffect_kept h1)

theorem wideRow_kept {f n a vals} (h : Kept s t) : Kept s (wideRow f n a vals t).2 := loadGrans_kept h

theorem combineToken_kept {c d heads recs x} (h : Kept s t) : Kept s (combineToken c d heads recs x t).2 := by
  unfold combineToken
  dsimp only
  split
  · split
    · dsimp only
      refine scoreRow_kept ?_
      refine wideRow_kept ?_
      refine Kept.foldlPair h ?_
      intro _ _ h1
      dsimp only
      exact wideRow_kept h1
    · dsimp only
      refine scoreRow_kept ?_
      refine wideRow_kept ?_
      refine Kept.foldlPair h ?_
      intro _ _ h1
      dsimp only
      exact wideRow_kept h1
  · dsimp only
    split
    · dsimp only
      refine scoreRow_kept ?_
      refine Kept.foldlPair h ?_
      intro _ _ h1
      dsimp only
      exact wideRow_kept h1
    · dsimp only
      refine scoreRow_kept ?_
      refine Kept.foldlPair h ?_
      intro _ _ h1
      dsimp only
      exact wideRow_kept h1

theorem routeCombineEffect_kept {x c d} (h : Kept s t) : Kept s (routeCombineEffect x c d t) := by
  unfold routeCombineEffect
  dsimp only
  refine Kept.foldl (Kept.foldl (groupRows_kept h) fun _ _ h => recordErr_kept (routeBump_kept h)) fun _ _ h => ?_
  have hc := fun heads recs k => combineToken_kept (c := c) (d := d) (heads := heads) (recs := recs) (x := k) h
  exact putGrans_kept (Kept.ite (routeBump_kept (Kept.ite (routeBump_kept (hc ..)) (hc ..)))
    (Kept.ite (routeBump_kept (hc ..)) (hc ..)))

theorem execRouteCombine_kept {q} (h : Kept s t) : KeptOut s (execRouteCombine q t) :=
  withLrd_kept h (fun _ _ _ _ h1 => routeCombineEffect_kept h1)

theorem execFillGroupWrite_kept {ctx program group} (h : Kept s t) :
    KeptOut s (execFillGroupWrite ctx program group t) := by
  unfold execFillGroupWrite
  dsimp only
  split
  · exact h
  · split
    · exact h
    · exact Kept.ite h (updProg_kept (Kept.foldl h (fun _ _ h1 => updQueue_kept h1)))

/-! ### Sys2Proof/Machine/Fab.lean -/

theorem keepCopy_kept {home a g} (h : Kept s t) : Kept s (keepCopy home a g t) := h.same rfl

theorem peckGran_kept {a} (h : Kept s t) : Kept s (peckGran a t).2 := by
  unfold peckGran
  dsimp only
  split
  · dsimp only
    exact bump_kept h
  · dsimp only
    exact loadGran_kept h

theorem getRequests_kept {o ctx dev gen fuel n remote loc} (h : Kept s t) :
    Kept s (getRequests o ctx dev gen fuel n remote loc t) := by
  induction fuel generalizing n remote loc t with
  | zero => exact h
  | succ k ih => exact Kept.ite h (ih (issue_kept h))

theorem getCached_kept {o ctx dev gen remote loc} (h : Kept s t) : Kept s (getCached o ctx dev gen remote loc t) := by
  unfold getCached
  dsimp only
  split
  · exact pcount_kept (putGran_kept (h.same rfl))
  · exact issue_kept (pcount_kept h)

theorem execGet_kept {q} (h : Kept s t) : KeptOut s (execGet q t) := by
  unfold execGet
  dsimp only
  split
  · exact h
  · exact Kept.ite (Kept.ite (putGran_kept (peckGran_kept (markWorked_kept h))) (putGrans_kept (loadGrans_kept
      (markWorked_kept h)))) (Kept.ite (issue_kept (markWorked_kept h)) (Kept.ite (Kept.foldl (markWorked_kept h)
      (fun _ _ h1 => getCached_kept h1)) (getRequests_kept (markWorked_kept h))))

theorem execPut_kept {q} (h : Kept s t) : KeptOut s (execPut q t) := by
  unfold execPut
  dsimp only
  split
  · exact h
  · exact Kept.ite (putGrans_kept (loadGrans_kept (markWorked_kept h))) (storeRemote_kept (loadGrans_kept
      (markWorked_kept h)))

theorem execAtomic_kept {q} (h : Kept s t) : KeptOut s (execAtomic q t) := by
  unfold execAtomic
  dsimp only
  split
  · exact h
  · exact Kept.ite (Kept.ite (Kept.ite (putGran_kept (loadGran_kept (markWorked_kept h))) (loadGran_kept
      (markWorked_kept h))) (putGran_kept (Kept.ite (putGran_kept (loadGran_kept (markWorked_kept h))) (loadGran_kept
      (markWorked_kept h))))) (issue_kept (markWorked_kept h))

theorem updMailbox_kept {ctx m g} (h : Kept s t) : Kept s (updMailbox ctx m g t) := h.same rfl

theorem deliverMessage_kept {ctx m src b gs} (h : Kept s t) : Kept s (deliverMessage ctx m src b gs t) :=
  signalEvent_kept (updMailbox_kept (putGrans_kept h))

theorem fabricErr_kept {status addr ctx} (h : Kept s t) : Kept s (fabricErr status addr ctx t) := recordErr_kept h

theorem execSend_kept {q} (h : Kept s t) : KeptOut s (execSend q t) := by
  unfold execSend
  dsimp only
  split
  · exact h
  · split
    · split
      · exact fabricErr_kept (markWorked_kept h)
      · exact Kept.ite h (deliverMessage_kept (loadGrans_kept (markWorked_kept h)))
    · exact issue_kept (loadGrans_kept (markWorked_kept h))

theorem execMbox_kept {q} (h : Kept s t) : KeptOut s (execMbox q t) := by
  unfold execMbox
  dsimp only
  split
  · exact h
  · split
    · exact updCtx_kept (markWorked_kept h)
    · exact updMailbox_kept (markWorked_kept h)
    · exact updCtx_kept (markWorked_kept h)

theorem updExchange_kept {ctx key inst g} (h : Kept s t) : Kept s (updExchange ctx key inst g t) := h.same rfl

theorem sendBlocks_kept {e d addr fuel gs} (h : Kept s t) : Kept s (sendBlocks e d addr fuel gs t) := by
  induction fuel generalizing addr gs t with
  | zero => exact h
  | succ k ih => exact Kept.ite h (ih (issue_kept h))

theorem maybeBlockEnd_kept {ctx key inst d} (h : Kept s t) : Kept s (maybeBlockEnd ctx key inst d t) := by
  unfold maybeBlockEnd
  dsimp only
  split
  · exact Kept.ite (issue_kept (updExchange_kept h)) h
  · exact h

theorem answerReady_kept {ctx key inst d addr} (h : Kept s t) : Kept s (answerReady ctx key inst d addr t) := by
  unfold answerReady
  dsimp only
  split
  · exact Kept.ite h (maybeBlockEnd_kept (sendBlocks_kept (updExchange_kept (loadGrans_kept h))))
  · exact h

theorem skipParticipant_kept {e d} (h : Kept s t) : Kept s (skipParticipant e d t) :=
  Kept.ite (h.same rfl) (putPoison_kept (h.same rfl))

theorem skipDead_kept (h : Kept s t) : Kept s (skipDead t) :=
  Kept.foldl h (fun _ _ h1 => Kept.foldl h1 (fun _ _ h2 => Kept.ite (skipParticipant_kept h2) h2))

theorem startExchange_kept {q ctx c x} (h : Kept s t) : Kept s (startExchange q ctx c x t) :=
  Kept.foldl (setFab_kept (Kept.foldl (skipDead_kept (setFab_kept (Kept.ite (recordErr_kept (putGrans_kept
    (loadGrans_kept (updCtx_kept h)))) (putGrans_kept (loadGrans_kept (updCtx_kept h)))))) (fun _ _ h1 => Kept.ite h1
    (issue_kept h1)))) (fun _ _ h1 => answerReady_kept h1)

theorem execExchange_kept {q} (h : Kept s t) : KeptOut s (execExchange q t) := by
  unfold execExchange
  split
  · exact h
  · split
    · exact startExchange_kept (markWorked_kept h)
    · exact faultQueue_kept h

theorem execRouteExchange_kept {q} (h : Kept s t) : KeptOut s (execRouteExchange q t) := by
  unfold execRouteExchange
  dsimp only
  split
  · exact h
  · exact Kept.ite (faultPoison_kept (loadBytes_kept h)) (Kept.ite (faultQueue_kept (loadBytes_kept h))
      (startExchange_kept (markWorked_kept (loadBytes_kept h))))

theorem noteSeq_kept {src seq result} (h : Kept s t) : Kept s (noteSeq src seq result t) := h.same rfl
theorem heardFrom_kept {dev} (h : Kept s t) : Kept s (heardFrom dev t) := h.same rfl

theorem respond_kept {p op status gs control cache} (h : Kept s t) :
    Kept s (respond p op status gs control cache t) :=
  sendResponse_kept h

theorem refuse_kept {p op status} (h : Kept s t) : Kept s (refuse p op status t) :=
  Kept.ite (pcount_kept (respond_kept h)) (respond_kept (pcount_kept (fabricErr_kept (noteSeq_kept h))))

theorem takePacket_kept {p op k} (h : Kept s t) (hk : ∀ u, Kept s u → Kept s (k u)) :
    KeptOut s (takePacket p op k t) :=
  Kept.ite (tcount_kept h) (hk _ (heardFrom_kept h))

theorem waitAt_kept {a p} (h : Kept s t) : Kept s (waitAt a p t) := h.same rfl

theorem shareGran_kept {a p} (h : Kept s t) : Kept s (shareGran a p t).2 := by
  unfold shareGran
  dsimp only
  split
  · split
    · dsimp only
      exact waitAt_kept h
    · dsimp only
      exact updDir_kept (h.same rfl)
  · split
    · exact h.same rfl
    · split
      · split
        · dsimp only
          exact waitAt_kept h
        · split
          · dsimp only
            exact refuse_kept h
          · dsimp only
            exact waitAt_kept (startRecall_kept (bump_kept h))
      · exact h

theorem serveLoad_kept {p} (h : Kept s t) : Kept s (serveLoad p t) := by
  unfold serveLoad
  dsimp only
  split
  · exact waitAt_kept h
  · split
    · exact respond_kept (noteSeq_kept (peckGran_kept h))
    · split
      · split
        · rename_i z2 e2
          have h1 : Kept s z2 := Kept.ofEq e2 (shareGran_kept h)
          exact respond_kept (noteSeq_kept (loadGrans_kept h1))
        · rename_i z2 e2
          have h1 : Kept s z2 := Kept.ofEq e2 (shareGran_kept h)
          exact h1
      · exact respond_kept (noteSeq_kept (loadGrans_kept h))

theorem blockedAt_kept {as p ack z} (h : Kept s t) (e : blockedAt as p ack t = some z) : Kept s z := by
  unfold blockedAt at e
  split at e
  · cases e
  · split at e
    · cases e
      exact waitAt_kept h
    · split at e
      · cases e
        exact refuse_kept h
      · cases e
        exact waitAt_kept (startRecall_kept h)

theorem blockedWrite_kept {p ack z} (h : Kept s t) (e : blockedWrite p ack t = some z) : Kept s z :=
  blockedAt_kept h e

theorem storeAll_kept {a gs} (h : Kept s t) : Kept s (storeAll a gs t) := by
  induction gs generalizing a t with
  | nil => exact h
  | cons g gs ih => exact ih (storeGran_kept h)

theorem serveStore_kept {p} (h : Kept s t) : Kept s (serveStore p t) := by
  unfold serveStore
  split
  · rename_i e
    exact blockedWrite_kept h e
  · exact respond_kept (noteSeq_kept (storeAll_kept h))

theorem serveAtomic_kept {p} (h : Kept s t) : Kept s (serveAtomic p t) := by
  unfold serveAtomic
  split
  · rename_i e
    exact blockedWrite_kept h e
  · exact respond_kept (noteSeq_kept (Kept.ite (storeGran_kept (loadGran_kept h)) (loadGran_kept h)))

theorem serveMsg_kept {p} (h : Kept s t) : Kept s (serveMsg p t) := by
  unfold serveMsg
  dsimp only
  split
  · exact refuse_kept h
  · split
    · exact refuse_kept h
    · split
      · exact refuse_kept h
      · split
        · rename_i e
          exact blockedAt_kept h e
        · exact respond_kept (noteSeq_kept (deliverMessage_kept h))

theorem readyAnswered_kept {p} (h : Kept s t) : Kept s (readyAnswered p t) := h.same rfl

theorem serveBlock_kept {p} (h : Kept s t) : Kept s (serveBlock p t) := by
  unfold serveBlock
  split
  · exact pcount_kept h
  · split
    · exact refuse_kept (readyAnswered_kept h)
    · split
      · rename_i e
        exact blockedAt_kept h e
      · extract_lets a b
        have ha : Kept s a := putGrans_kept (readyAnswered_kept h)
        exact respond_kept (noteSeq_kept (updExchange_kept (Kept.ite (recordErr_kept ha) ha)))

theorem serveRequest_kept {p} (h : Kept s t) : Kept s (serveRequest p t) := by
  unfold serveRequest
  split
  · exact serveLoad_kept h
  · exact serveStore_kept h
  · exact serveAtomic_kept h
  · exact serveMsg_kept h
  · exact serveBlock_kept h
  · exact h

theorem execLoadReq_kept {p} (h : Kept s t) : KeptOut s (execLoadReq p t) := by
  unfold execLoadReq
  dsimp only
  refine takePacket_kept h ?_
  intro _ h1
  split
  · exact h1
  · split
    · exact refuse_kept h1
    · exact serveLoad_kept (Kept.ite (pcount_kept h1) h1)

theorem execStorePacket_kept {p} (h : Kept s t) : KeptOut s (execStorePacket p t) := by
  unfold execStorePacket
  refine takePacket_kept h ?_
  intro _ h1
  split
  · exact h1
  · split
    · exact respond_kept (pcount_kept h1)
    · split
      · exact refuse_kept h1
      · exact serveStore_kept h1

theorem execAtomicPacket_kept {p} (h : Kept s t) : KeptOut s (execAtomicPacket p t) := by
  unfold execAtomicPacket
  dsimp only
  refine takePacket_kept h ?_
  intro _ h1
  split
  · exact h1
  · split
    · exact respond_kept (pcount_kept h1)
    · split
      · exact refuse_kept h1
      · exact serveAtomic_kept h1

theorem execMsg_kept {p} (h : Kept s t) : KeptOut s (execMsg p t) :=
  takePacket_kept h (fun _ h1 => Kept.ite h1 (Kept.ite (respond_kept (pcount_kept h1)) (serveMsg_kept h1)))

theorem execReady_kept {p} (h : Kept s t) : KeptOut s (execReady p t) := by
  unfold execReady
  dsimp only
  refine takePacket_kept h ?_
  intro _ h1
  split
  · exact refuse_kept h1
  · split
    · exact pcount_kept h1
    · split
      · exact pcount_kept (noteSeq_kept h1)
      · split
        · exact answerReady_kept (noteSeq_kept h1)
        · exact Kept.ite (refuse_kept h1) (h1.same rfl)

theorem execBlock_kept {p} (h : Kept s t) : KeptOut s (execBlock p t) :=
  takePacket_kept h (fun _ h1 => Kept.ite (refuse_kept h1) (Kept.ite h1 (Kept.ite (respond_kept (pcount_kept h1))
    (serveBlock_kept h1))))

theorem execBlockEnd_kept {p} (h : Kept s t) : KeptOut s (execBlockEnd p t) := by
  unfold execBlockEnd
  dsimp only
  refine takePacket_kept h ?_
  intro _ h1
  split
  · exact refuse_kept h1
  · split
    · exact respond_kept (pcount_kept h1)
    · split
      · exact pcount_kept h1
      · exact respond_kept (noteSeq_kept (updExchange_kept (readyAnswered_kept h1)))

theorem placeFetched_kept {x gs} (h : Kept s t) : Kept s (placeFetched x gs t) := by
  unfold placeFetched
  dsimp only
  split
  · split
    · exact placeXfer_kept (updXfer_kept h)
    · exact updXfer_kept h
  · exact placeXfer_kept (updXfer_kept h)
  · exact putGrans_kept (updXfer_kept h)

theorem advanceAny_kept {id} (h : Kept s t) : Kept s (advanceAny id t) := by
  unfold advanceAny
  split
  · split
    · exact advanceReturn_kept h
    · exact h
    · exact advanceXfer_kept h (fun _ _ _ h1 => placeFetched_kept h1)
  · exact h

theorem dropRequest_kept {r} (h : Kept s t) : Kept s (dropRequest r t) := h.same rfl

theorem placeAnswer_kept {r gs old keep} (h : Kept s t) : Kept s (placeAnswer r gs old keep t) := by
  unfold placeAnswer
  dsimp only
  split
  · exact putGrans_kept h
  · exact updXfer_kept h
  · exact Kept.ite (pcount_kept (setFab_kept (putGran_kept h))) (Kept.ite (keepCopy_kept (putGran_kept h))
      (putGran_kept h))
  · exact Kept.ite h (putGran_kept h)
  · exact h

theorem afterRequest_kept {r} (h : Kept s t) : Kept s (afterRequest r t) := by
  unfold afterRequest
  dsimp only
  split
  · exact maybeBlockEnd_kept (drainHeld_kept h)
  · exact advanceAny_kept (drainHeld_kept h)
  · exact drainHeld_kept h

theorem countAck_kept {r} (h : Kept s t) : Kept s (countAck r t) := Kept.ite (updCtx_kept h) h

theorem takeResponse_kept {p gs old} (h : Kept s t) : Kept s (takeResponse p gs old t) := by
  unfold takeResponse
  dsimp only
  split
  · exact pcount_kept h
  · exact Kept.ite (h.same rfl) (Kept.ite (afterRequest_kept (placeAnswer_kept (fabricErr_kept (countAck_kept
      (dropRequest_kept h))))) (afterRequest_kept (placeAnswer_kept (countAck_kept (dropRequest_kept h)))))

theorem execLoadResp_kept {p} (h : Kept s t) : KeptOut s (execLoadResp p t) :=
  takePacket_kept h (fun _ h1 => takeResponse_kept h1)

theorem execStoreAck_kept {p} (h : Kept s t) : KeptOut s (execStoreAck p t) :=
  takePacket_kept h (fun _ h1 => takeResponse_kept h1)

theorem execAtomicResp_kept {p} (h : Kept s t) : KeptOut s (execAtomicResp p t) :=
  takePacket_kept h (fun _ h1 => takeResponse_kept h1)

theorem execMsgAck_kept {p} (h : Kept s t) : KeptOut s (execMsgAck p t) :=
  takePacket_kept h (fun _ h1 => takeResponse_kept h1)

theorem execBlockAck_kept {p} (h : Kept s t) : KeptOut s (execBlockAck p t) := by
  unfold execBlockAck
  dsimp only
  refine takePacket_kept h ?_
  intro _ h1
  refine takeResponse_kept ?_
  split
  · split
    · exact Kept.ite (updExchange_kept h1) h1
    · exact h1
  · exact h1

theorem nextRecall_kept {stack} (h : Kept s t) : Kept s (nextRecall stack t) := by
  unfold nextRecall
  split
  · exact wantRecall_kept h
  · exact h

theorem freeEntry_kept {a} (h : Kept s t) : Kept s (freeEntry a t) := by
  unfold freeEntry
  dsimp only
  split
  · exact h
  · exact nextRecall_kept (Kept.foldl (Kept.foldl (h.same rfl) (fun _ _ h1 => storeGran_kept h1))
      (fun _ _ h1 => serveRequest_kept h1))

theorem recallExtent_kept {a n} (h : Kept s t) : Kept s (recallExtent a n t) :=
  Kept.foldl h (fun _ _ h1 => Kept.ite (wantRecall_kept h1) h1)

theorem freeRegions_kept (h : Kept s t) : Kept s (freeRegions t) := by
  unfold freeRegions
  refine Kept.foldl h ?_
  intro _ _ h1
  refine Kept.foldl h1 ?_
  intro _ _ h2
  split
  · exact Kept.ite h2 (finishOk_kept (updCtx_kept h2))
  · exact h2

theorem dropSharer_kept {a slot} (h : Kept s t) : Kept s (dropSharer a slot t) := by
  unfold dropSharer
  dsimp only
  split
  · exact Kept.ite (freeRegions_kept (freeEntry_kept (updDir_kept h))) (updDir_kept h)
  · exact updDir_kept h

theorem execInv_kept {p} (h : Kept s t) : KeptOut s (execInv p t) :=
  takePacket_kept h (fun _ h1 => respond_kept (noteSeq_kept (h1.same rfl)))

theorem execInvAck_kept {p} (h : Kept s t) : KeptOut s (execInvAck p t) := by
  unfold execInvAck
  refine takePacket_kept h ?_
  intro _ h1
  split
  · exact Kept.ite (dropSharer_kept (takeResponse_kept h1)) h1
  · exact pcount_kept h1

theorem execDropNotice_kept {home} (h : Kept s t) : KeptOut s (execDropNotice home t) :=
  Kept.ite (emit_kept (dropCopies_kept h)) h

theorem resend_kept {r alternate attempts} (h : Kept s t) : Kept s (resend r alternate attempts t) :=
  setFab_kept (sendRouted_kept h)

theorem failRequest_kept {r} (h : Kept s t) : Kept s (failRequest r t) := by
  unfold failRequest
  dsimp only
  refine afterRequest_kept ?_
  refine placeAnswer_kept ?_
  split
  · refine dropSharer_kept ?_
    refine recordErr_kept ?_
    split
    · exact updXfer_kept (Kept.ite (updCtx_kept (countAck_kept (recordErr_kept (pcount_kept (dropCopies_kept
        (dropRequest_kept h)))))) (countAck_kept (recordErr_kept (pcount_kept (dropCopies_kept
        (dropRequest_kept h))))))
    · exact updCmd_kept (Kept.ite (updCtx_kept (countAck_kept (recordErr_kept (pcount_kept (dropCopies_kept
        (dropRequest_kept h)))))) (countAck_kept (recordErr_kept (pcount_kept (dropCopies_kept
        (dropRequest_kept h))))))
    · exact Kept.ite (updCtx_kept (countAck_kept (recordErr_kept (pcount_kept (dropCopies_kept
        (dropRequest_kept h)))))) (countAck_kept (recordErr_kept (pcount_kept (dropCopies_kept
        (dropRequest_kept h)))))
  · split
    · exact updXfer_kept (Kept.ite (updCtx_kept (countAck_kept (recordErr_kept (pcount_kept (dropCopies_kept
        (dropRequest_kept h)))))) (countAck_kept (recordErr_kept (pcount_kept (dropCopies_kept
        (dropRequest_kept h))))))
    · exact updCmd_kept (Kept.ite (updCtx_kept (countAck_kept (recordErr_kept (pcount_kept (dropCopies_kept
        (dropRequest_kept h)))))) (countAck_kept (recordErr_kept (pcount_kept (dropCopies_kept
        (dropRequest_kept h))))))
    · exact Kept.ite (updCtx_kept (countAck_kept (recordErr_kept (pcount_kept (dropCopies_kept
        (dropRequest_kept h)))))) (countAck_kept (recordErr_kept (pcount_kept (dropCopies_kept
        (dropRequest_kept h)))))

theorem execRetxTimeout_kept {dst seq} (h : Kept s t) : KeptOut s (execRetxTimeout dst seq t) := by
  unfold execRetxTimeout
  dsimp only
  split
  · exact h
  · exact Kept.ite (retxSlip_kept (resend_kept (pcount_kept h))) (Kept.ite (failRequest_kept (Kept.ite (skipDead_kept
      (markUnreachable_kept h)) h)) (retxSlip_kept (resend_kept (pcount_kept (Kept.ite (skipDead_kept
      (markUnreachable_kept h)) h)))))

/-! ### Sys2Proof/Machine/Engine.lean -/

theorem countStart_kept {c} (h : Kept s t) : Kept s (countStart c t) :=
  Kept.ite h (Kept.ite (setCounter_kept (setCounter_kept (bump_kept (bump_kept (Kept.ite (bump_kept h) h)))))
    (Kept.ite (bump_kept h) h))

theorem missFill_kept {e q x} (h : Kept s t) : Kept s (missFill e q x t) :=
  Kept.ite h (requestSlip_kept (updQueue_kept (h.same rfl)))

theorem dropWork_kept {e q} (h : Kept s t) : Kept s (dropWork e q t) := by
  unfold dropWork
  dsimp only
  split
  · exact h.same rfl
  · exact h.same rfl
  · exact h

theorem signalRetired_kept {x c} (h : Kept s t) : Kept s (signalRetired x c t) :=
  Kept.ite h (Kept.ite (h.same rfl) (signalEvent_kept h))

theorem retireHead_kept {e q x c} (h : Kept s t) : Kept s (retireHead e q x c t) :=
  Kept.ite (landCopy_kept (freeUnits_kept (dropWork_kept (setQueue_kept (signalRetired_kept h))))) (freeUnits_kept
    (dropWork_kept (setQueue_kept (signalRetired_kept h))))

theorem unbindMailboxes_kept {ctx prog} (h : Kept s t) : Kept s (unbindMailboxes ctx prog t) := h.same rfl

theorem setQueuesOf_kept {p g} (h : Kept s t) : Kept s (setQueuesOf p g t) :=
  Kept.foldl h (fun _ _ h1 => updQueue_kept h1)

theorem stopProgram_kept {ctx prog p} (h : Kept s t) : Kept s (stopProgram ctx prog p t) :=
  silenceSchedule_kept (unbindMailboxes_kept (updProg_kept (setQueuesOf_kept h)))

theorem settleStops_kept {ctx prog} (h : Kept s t) : Kept s (settleStops ctx prog t) := by
  unfold settleStops
  dsimp only
  split
  · exact h
  · exact Kept.ite h (Kept.foldl (updProg_kept h) (fun _ _ h1 => finishOk_kept (Kept.ite (stopProgram_kept h1) h1)))

theorem settleStart_kept {ctx prog} (h : Kept s t) : Kept s (settleStart ctx prog t) := by
  unfold settleStart
  split
  · exact h
  · exact Kept.ite (finishStarts_kept h) h

theorem settleProgram_kept {ctx prog} (h : Kept s t) : Kept s (settleProgram ctx prog t) :=
  settleStart_kept (settleStops_kept (settleSlipOut_kept h))

theorem settleQueue_kept {e q} (h : Kept s t) : Kept s (settleQueue e q t) := by
  unfold settleQueue
  split
  · exact settleProgram_kept h
  · exact h

theorem requestStop_kept {p} (h : Kept s t) : Kept s (requestStop p t) := setQueuesOf_kept h

theorem runCommon_kept {e q opcode k} (h : Kept s t) (hk : ∀ y0 y1 u, Kept s u → Kept s (k y0 y1 u)) :
    KeptOut s (runCommon e q opcode k t) := by
  unfold runCommon
  split
  · exact h
  · split
    · exact h
    · split
      · exact settleQueue_kept (faultQueue_kept h)
      · exact h
      · exact missFill_kept h
      · exact settleQueue_kept (hk _ _ _ (countStart_kept h))

theorem execNop_kept {e q} (h : Kept s t) : KeptOut s (execNop e q t) :=
  runCommon_kept h (fun _ _ _ h1 => retireHead_kept h1)

theorem execEndList_kept {e q} (h : Kept s t) : KeptOut s (execEndList e q t) :=
  runCommon_kept h (fun _ _ _ h1 => updQueue_kept (retireHead_kept h1))

theorem execFrameLoop_kept {e q} (h : Kept s t) : KeptOut s (execFrameLoop e q t) :=
  runCommon_kept h (fun _ _ _ h1 => updQueue_kept (retireHead_kept h1))

theorem execCommandStart_kept {e q} (h : Kept s t) : KeptOut s (execCommandStart e q t) := by
  unfold execCommandStart
  dsimp only
  split
  · exact h
  · split
    · exact settleQueue_kept (faultQueue_kept h)
    · exact h
    · exact missFill_kept h
    · exact Kept.ite h (Kept.ite (settleQueue_kept (retireHead_kept (countStart_kept h))) (setQueue_kept
        (countStart_kept h)))

theorem placeTask_kept {e q x x1 c} (h : Kept s t) : Kept s (placeTask e q x x1 c t) :=
  setQueue_kept (setEng_kept (Kept.ite (updProg_kept h) h))

theorem holdUnit_kept {e q x x1} (h : Kept s t) : Kept s (holdUnit e q x x1 t) := h.same rfl

theorem execTaskIssue_kept {e q} (h : Kept s t) : KeptOut s (execTaskIssue e q t) := by
  unfold execTaskIssue
  split
  · exact h
  · split
    · exact h
    · split
      · exact h
      · split
        · exact h
        · split
          · exact placeTask_kept h
          · exact placeTask_kept h
          · exact holdUnit_kept h

theorem execCommandRetire_kept {e q} (h : Kept s t) : KeptOut s (execCommandRetire e q t) := by
  unfold execCommandRetire
  split
  · exact h
  · split
    · exact h
    · exact Kept.ite (settleQueue_kept (retireHead_kept h)) h

/-! ### Sys2Proof/Machine/PowerCtl.lean -/

theorem applyCaps_kept (h : Kept s t) : Kept s (applyCaps t) := h.same rfl

theorem storePower_kept {src mode cap brake} (h : Kept s t) : Kept s (storePower src mode cap brake t) := by
  unfold storePower
  dsimp only
  split <;> exact h.same rfl

theorem setReason_kept {code on} (h : Kept s t) : Kept s (setReason code on t) := by
  unfold setReason
  dsimp only
  split
  · exact h
  · exact Kept.ite (Kept.ite (h.same rfl) (postEvent_kept (h.same rfl))) (h.same rfl)

theorem noteReasons_kept (h : Kept s t) : Kept s (noteReasons t) := by
  unfold noteReasons
  extract_lets z
  have hz : Kept s z := Kept.foldl h fun _ _ h => setReason_kept h
  exact Kept.ite (setPwr_kept hz) hz

theorem execControlInterval_kept {volts10mV milliamps watts} (h : Kept s t) :
    KeptOut s (execControlInterval volts10mV milliamps watts t) :=
  Kept.ite h (noteReasons_kept (setReason_kept (setReason_kept (h.same rfl))))

theorem tickPower_kept (h : Kept s t) : Kept s (tickPower t) := h.same rfl

theorem execBrakeN_kept {low heldNs} (h : Kept s t) : KeptOut s (execBrakeN low heldNs t) :=
  Kept.ite h (noteReasons_kept (h.same rfl))

theorem execInputUv_kept {volts10mV} (h : Kept s t) : KeptOut s (execInputUv volts10mV t) :=
  Kept.ite h (noteReasons_kept (h.same rfl))

theorem execInputUvClear_kept {volts10mV} (h : Kept s t) : KeptOut s (execInputUvClear volts10mV t) :=
  Kept.ite (noteReasons_kept (h.same rfl)) h

theorem execVrAlert_kept {regulator} (h : Kept s t) : KeptOut s (execVrAlert regulator t) :=
  Kept.ite h (noteReasons_kept (h.same rfl))

theorem execVrAlertClear_kept {regulator} (h : Kept s t) : KeptOut s (execVrAlertClear regulator t) :=
  noteReasons_kept (h.same rfl)

theorem faultEdge_kept {before} (h : Kept s t) : Kept s (faultEdge before t) := Kept.ite h (emit_kept h)
theorem beginTraining_kept (h : Kept s t) : Kept s (beginTraining t) := Kept.ite (h.same rfl) (h.same rfl)

theorem execDieTempReading_kept {temps} (h : Kept s t) : KeptOut s (execDieTempReading temps t) := by
  unfold execDieTempReading
  refine Kept.ite h ?_
  extract_lets hot pwr a z
  have hz : Kept s z := noteReasons_kept (h.same rfl)
  exact Kept.ite (beginTraining_kept (faultEdge_kept (setFaults_kept hz))) hz

theorem execDieFloorStep_kept (h : Kept s t) : KeptOut s (execDieFloorStep t) :=
  Kept.ite h (noteReasons_kept (h.same rfl))

/-! ### Sys2Proof/Machine/Fleos.lean -/

theorem acceptDesc_kept {src d mgtTag} (h : Kept s t) : Kept s (acceptDesc src d mgtTag t) := by
  unfold acceptDesc
  dsimp only
  split
  · exact finish_kept (h.same rfl)
  · exact h.same rfl

theorem runCmd_kept {op src first again} (h : Kept s t) (hfirst : ∀ y0 u, Kept s u → Kept s (first y0 u))
    (hagain : ∀ y0 u, Kept s u → Kept s (again y0 u)) :
    KeptOut s (runCmd op src first again t) := by
  unfold runCmd
  split
  · exact h
  · split
    · exact h
    · split
      · exact h
      · exact hagain _ _ h
      · split
        · exact h
        · split
          · exact finish_kept h
          · exact hfirst _ _ (updCmd_kept h)

theorem noAgain_kept {x} (h : Kept s t) : Kept s (noAgain x t) := h.same rfl

theorem finishPoisoned_kept {c addr} (h : Kept s t) : Kept s (finishPoisoned c addr t) :=
  finish_kept (recordErr_kept (h.same rfl))

theorem finishClosers_kept {number result} (h : Kept s t) : Kept s (finishClosers number result t) := by
  unfold finishClosers
  refine Kept.foldl h ?_
  intro _ _ h1
  split
  · split
    · exact finish_kept h1
    · exact finishOk_kept h1
    · exact finishOk_kept h1
    · exact updCmd_kept h1
    · exact updCmd_kept h1
    · exact h1
  · exact h1

theorem closeStream_kept {slot stop} (h : Kept s t) : Kept s (closeStream slot stop t) := by
  unfold closeStream
  split
  · exact h
  · exact finishClosers_kept (endStream_kept h)

theorem recallRegions_kept {ctx} (h : Kept s t) : Kept s (recallRegions ctx t) := by
  unfold recallRegions
  split
  · exact h
  · exact Kept.foldl h (fun _ _ h1 => Kept.ite (recallExtent_kept (updCtx_kept h1)) h1)

theorem stopCtx_kept {ctx} (h : Kept s t) : Kept s (stopCtx ctx t) := by
  unfold stopCtx
  dsimp only
  split
  · exact h
  · exact Kept.ite (recallRegions_kept (Kept.foldl h (fun _ _ h1 => requestStop_kept h1))) (Kept.foldl h
      (fun _ _ h1 => requestStop_kept h1))

theorem unbindProgram_kept {p} (h : Kept s t) : Kept s (unbindProgram p t) :=
  Kept.foldl h (fun _ _ h1 => setEng_kept (freeUnits_kept (dropWork_kept h1)))

theorem dropCtxCounters_kept {ctx} (h : Kept s t) : Kept s (dropCtxCounters ctx t) := h.same rfl

theorem endContext_kept {ctx skip aborted} (h : Kept s t) : Kept s (endContext ctx skip aborted t) := by
  unfold endContext
  split
  · exact h
  · extract_lets a own b c d
    have ha : Kept s a := Kept.foldl h fun _ _ h => Kept.ite (endStream_kept h) h
    have hb : Kept s b := by
      refine Kept.foldl ha fun _ _ h => ?_
      split
      · exact finish_kept h
      · exact finish_kept h
    have hc : Kept s c := Kept.foldl hb fun _ _ h => unbindProgram_kept h
    exact postEvent_kept (dropCtxCounters_kept (hc.same rfl))

theorem execCtxCreate_kept {src} (h : Kept s t) : KeptOut s (execCtxCreate src t) :=
  runCmd_kept h (fun _ _ h1 => Kept.ite (finishNoRes_kept h1) (Kept.ite (finishNoRes_kept h1) (finishOk_kept
    (setContexts_kept (flushCache_kept h1))))) (fun _ _ h1 => noAgain_kept h1)

theorem execCtxDestroy_kept {src} (h : Kept s t) : KeptOut s (execCtxDestroy src t) :=
  runCmd_kept h (fun _ _ h1 => Kept.ite (finishOk_kept (endContext_kept (stopCtx_kept h1))) (stopCtx_kept h1))
    (fun _ _ h1 => Kept.ite (finishOk_kept (endContext_kept (stopCtx_kept h1))) (stopCtx_kept h1))

theorem regionLive_kept {ctx region cmd} (h : Kept s t) : Kept s (regionLive ctx region cmd t) :=
  finishOk_kept (updCtx_kept h)

theorem regionGone_kept {ctx region cmd} (h : Kept s t) : Kept s (regionGone ctx region cmd t) := by
  unfold regionGone
  split
  · exact finishBad_kept h
  · exact Kept.ite (finishBad_kept h) (freeRegions_kept (recallExtent_kept (updCtx_kept h)))

theorem execRegionMap_kept {src} (h : Kept s t) : KeptOut s (execRegionMap src t) := by
  unfold execRegionMap
  dsimp only
  refine runCmd_kept h ?_ (fun _ _ h1 => noAgain_kept h1)
  intro _ _ h1
  split
  · exact h1
  · exact Kept.ite (finishNoRes_kept h1) (Kept.ite (finishNoRes_kept h1) (Kept.ite (h1.same rfl) (regionLive_kept
      (updCtx_kept h1))))

theorem execRegionUnmap_kept {src} (h : Kept s t) : KeptOut s (execRegionUnmap src t) := by
  unfold execRegionUnmap
  dsimp only
  refine runCmd_kept h ?_ (fun _ _ h1 => noAgain_kept h1)
  intro _ _ h1
  split
  · exact finishBad_kept h1
  · exact Kept.ite (finishNoRes_kept h1) (Kept.ite (h1.same rfl) (regionGone_kept h1))

theorem dropProgram_kept {ctx prog p} (h : Kept s t) : Kept s (dropProgram ctx prog p t) :=
  updCtx_kept (silenceSchedule_kept (unbindMailboxes_kept (unbindProgram_kept h)))

theorem bindImage_kept {ctx prog base im} (h : Kept s t) : Kept s (bindImage ctx prog base im t) :=
  Kept.foldl (updCtx_kept h) (fun _ _ h1 => setQueue_kept h1)

theorem replaceProgram_kept {ctx prog base x im} (h : Kept s t) : Kept s (replaceProgram ctx prog base x im t) := by
  unfold replaceProgram
  refine bindImage_kept ?_
  split
  · exact dropProgram_kept h
  · exact h

theorem execProgramLoad_kept {src} (h : Kept s t) : KeptOut s (execProgramLoad src t) := by
  unfold execProgramLoad
  dsimp only
  refine runCmd_kept h ?_ (fun _ _ h1 => noAgain_kept h1)
  intro _ _ h1
  split
  · exact h1
  · split
    · exact finishPoisoned_kept h1
    · split
      · exact h1
      · split
        · exact finishNoRes_kept h1
        · split
          · exact finishNoRes_kept h1
          · exact Kept.ite (finishNoRes_kept h1) (finishOk_kept (replaceProgram_kept h1))

theorem startQueues_kept {p} (h : Kept s t) : Kept s (startQueues p t) := setQueuesOf_kept h
theorem clearEvents_kept {base n} (h : Kept s t) : Kept s (clearEvents base n t) := h.same rfl
theorem primeProgram_kept {ctx prog} (h : Kept s t) : Kept s (primeProgram ctx prog t) := h.same rfl
theorem primeContext_kept {ctx} (h : Kept s t) : Kept s (primeContext ctx t) := h.same rfl

theorem goProgram_kept {ctx prog order p} (h : Kept s t) : Kept s (goProgram ctx prog order p t) :=
  startQueues_kept (updProg_kept (Kept.ite (Kept.ite (clearEvents_kept (Kept.ite (updCtx_kept h) h)) (Kept.ite
    (updCtx_kept h) h)) (primeProgram_kept (Kept.ite (clearEvents_kept (Kept.ite (updCtx_kept h) h)) (Kept.ite
    (updCtx_kept h) h)))))

theorem execProgramStart_kept {src} (h : Kept s t) : KeptOut s (execProgramStart src t) := by
  unfold execProgramStart
  dsimp only
  refine runCmd_kept h ?_ ?_
  · intro _ _ h1
    split
    · exact finishBad_kept h1
    · exact Kept.ite (finishNoRes_kept h1) (Kept.ite (finishNoRes_kept h1) (Kept.ite (goProgram_kept h1)
        (updCmd_kept h1)))
  · intro _ _ h1
    split
    · exact h1
    · exact Kept.ite (goProgram_kept (updCmd_kept h1)) h1

theorem haltProgram_kept {ctx prog order mode p} (h : Kept s t) : Kept s (haltProgram ctx prog order mode p t) :=
  settleProgram_kept (requestStop_kept (updProg_kept h))

theorem execProgramStop_kept {src} (h : Kept s t) : KeptOut s (execProgramStop src t) := by
  unfold execProgramStop
  dsimp only
  refine runCmd_kept h ?_ ?_
  · intro _ _ h1
    split
    · exact finishBad_kept h1
    · split
      · split
        · exact finishBad_kept h1
        · exact haltProgram_kept h1
      · exact updCmd_kept h1
  · intro _ _ h1
    split
    · split
      · exact finishBad_kept (updCmd_kept h1)
      · exact haltProgram_kept (updCmd_kept h1)
    · exact h1

theorem execResume_kept {src} (h : Kept s t) : KeptOut s (execResume src t) := by
  refine runCmd_kept h (fun c z h => ?_) fun _ _ h => noAgain_kept h
  dsimp only
  split
  · generalize e : (if z.boot.flowLow then takeBool z else (false, z)) = r
    have hr : Kept s r.2 := by
      refine Kept.ofEq e ?_
      split
      · exact takeBool_kept h
      · exact h
    exact Kept.ite (finishNoRes_kept hr)
      (finishOk_kept (noteReasons_kept (Kept.foldl (hr.same rfl) fun _ _ h => primeContext_kept h)))
  · split
    · exact finishBad_kept h
    · exact finishOk_kept (primeProgram_kept (setQueuesOf_kept h))

theorem execStreamOpen_kept {src} (h : Kept s t) : KeptOut s (execStreamOpen src t) := by
  unfold execStreamOpen
  dsimp only
  refine runCmd_kept h ?_ (fun _ _ h1 => noAgain_kept h1)
  intro _ _ h1
  split
  · exact finishNoRes_kept h1
  · split
    · exact finishPoisoned_kept h1
    · split
      · exact finishNoRes_kept h1
      · exact finishOk_kept (h1.same rfl)

theorem closeCmd_kept {op stop src} (h : Kept s t) : KeptOut s (closeCmd op stop src t) := by
  unfold closeCmd
  dsimp only
  refine runCmd_kept h ?_ (fun _ _ h1 => Kept.ite (closeStream_kept (h1.same rfl)) h1)
  intro _ _ h1
  split
  · exact Kept.ite (finishBad_kept h1) (finishOk_kept h1)
  · exact Kept.ite (closeStream_kept h1) (h1.same rfl)

theorem execStreamClose_kept {src} (h : Kept s t) : KeptOut s (execStreamClose src t) := closeCmd_kept h
theorem execStreamAbort_kept {src} (h : Kept s t) : KeptOut s (execStreamAbort src t) := closeCmd_kept h

theorem execPromptSubmit_kept {src} (h : Kept s t) : KeptOut s (execPromptSubmit src t) := by
  unfold execPromptSubmit
  dsimp only
  refine runCmd_kept h ?_ (fun _ _ h1 => noAgain_kept h1)
  intro _ _ h1
  split
  · exact finishBad_kept h1
  · exact Kept.ite (updCmd_kept h1) (Kept.ite (finishNoRes_kept h1) (Kept.ite (finishPoisoned_kept h1)
      (updStream_kept h1)))

theorem applyBatch_kept {c list frame} (h : Kept s t) : Kept s (applyBatch c list frame t) :=
  finishOk_kept (updCtx_kept h)

theorem execBatchSet_kept {src} (h : Kept s t) : KeptOut s (execBatchSet src t) :=
  runCmd_kept h (fun _ _ h1 => Kept.ite (finishPoisoned_kept h1) (Kept.ite (finishBad_kept h1) (h1.same rfl)))
    (fun _ _ h1 => noAgain_kept h1)

theorem execKvSpillPolicy_kept {src} (h : Kept s t) : KeptOut s (execKvSpillPolicy src t) :=
  runCmd_kept h (fun _ _ h1 => finishOk_kept (updCtx_kept h1)) (fun _ _ h1 => noAgain_kept h1)

theorem setPolicy_kept {ctx layer cap pol order} (h : Kept s t) : Kept s (setPolicy ctx layer cap pol order t) :=
  finishOk_kept (updCtx_kept h)

theorem execExpertResidency_kept {src} (h : Kept s t) : KeptOut s (execExpertResidency src t) := by
  unfold execExpertResidency
  dsimp only
  refine runCmd_kept h ?_ (fun _ _ h1 => noAgain_kept h1)
  intro _ _ h1
  split
  · exact Kept.ite (h1.same rfl) (setPolicy_kept h1)
  · split
    · exact finishNoRes_kept h1
    · exact Kept.ite (finishNoRes_kept h1) (Kept.ite (finishNoRes_kept h1) (Kept.ite (finishOk_kept (updCtx_kept h1))
        (updCtx_kept h1)))

theorem powerNow_kept {c} (h : Kept s t) : Kept s (powerNow c t) := finishOk_kept (applyCaps_kept (storePower_kept h))

theorem execPowerSet_kept {src} (h : Kept s t) : KeptOut s (execPowerSet src t) :=
  runCmd_kept h (fun _ _ h1 => Kept.ite (setDue_kept (Kept.ite (storePower_kept h1) h1)) (powerNow_kept h1))
    (fun _ _ h1 => noAgain_kept h1)

theorem takeDue_kept {k d} (h : Kept s t) : Kept s (takeDue k d t).2 := by
  unfold takeDue
  split
  · dsimp only
    exact regionLive_kept h
  · dsimp only
    exact regionGone_kept h
  · dsimp only
    exact setPolicy_kept h
  · split
    · exact h
    · split
      · exact h
      · dsimp only
        exact powerNow_kept h
  · split
    · exact h
    · split
      · split
        · exact h
        · dsimp only
          exact applyBatch_kept h
      · dsimp only
        exact applyBatch_kept h
  · split
    · split
      · exact h
      · split
        · exact h
        · dsimp only
          exact closeStream_kept h
    · exact h

theorem takeDues_kept {k} (h : Kept s t) : Kept s (takeDues k t) := by
  unfold takeDues
  refine Kept.foldl (h.same rfl) ?_
  intro _ _ h1
  dsimp only
  split
  · exact setDue_kept (takeDue_kept h1)
  · exact takeDue_kept h1

theorem execFence_kept {src} (h : Kept s t) : KeptOut s (execFence src t) := by
  unfold execFence
  extract_lets earlier settle go
  have hs : ∀ c u, Kept s u → Kept s (settle c u) := by
    intro c u h
    simp only [settle]
    refine Kept.ite h (Kept.ite (finishOk_kept h) ?_)
    split
    · exact h
    · refine Kept.ite h ?_
      split
      · exact finish_kept (updCtx_kept h)
      · exact finishOk_kept h
  have hg : ∀ c u, Kept s u → Kept s (go c u) := by
    intro c u h
    simp only [go]
    split
    · exact h
    · exact Kept.ite (hs _ _ (updCtx_kept (updCmd_kept h))) (hs _ _ h)
  exact runCmd_kept h hg hg

/-! ### Sys2Proof/Machine/Rings.lean -/

theorem setRing_kept {fn n r} (h : Kept s t) : Kept s (setRing fn n r t) := h.same rfl
theorem dropRing_kept {fn n} (h : Kept s t) : Kept s (dropRing fn n t) := h.same rfl

theorem refuseRing_kept {fn n reason} (h : Kept s t) : Kept s (refuseRing fn n reason t) :=
  postEvent_kept (updFn_kept h)

theorem closeSubmit_kept {fn n} (h : Kept s t) : Kept s (closeSubmit fn n t) := by
  unfold closeSubmit
  dsimp only
  split
  · exact h
  · split
    · exact Kept.ite (dropRing_kept (dropRing_kept (publish_kept (updRing_kept h)))) (dropRing_kept (publish_kept
        (updRing_kept h)))
    · exact dropRing_kept (publish_kept (updRing_kept h))

theorem settleRing_kept {fn n} (h : Kept s t) : Kept s (settleRing fn n t) := by
  unfold settleRing
  split
  · exact Kept.ite (closeSubmit_kept h) h
  · exact h

theorem resumeEvent_kept {fn n e} (h : Kept s t) : Kept s (resumeEvent fn n e t) := publish_kept (setRing_kept h)
theorem noteSeen_kept {fn n} (h : Kept s t) : Kept s (noteSeen fn n t) := h.same rfl

theorem openRing_kept {fn n} (h : Kept s t) : Kept s (openRing fn n t) := by
  unfold openRing
  dsimp only
  split
  · exact h
  · split
    · exact refuseRing_kept (noteSeen_kept h)
    · split
      · split
        · exact refuseRing_kept (noteSeen_kept h)
        · exact Kept.ite (refuseRing_kept (noteSeen_kept h)) (Kept.ite (refuseRing_kept (noteSeen_kept h))
            (publish_kept (setRing_kept (noteSeen_kept h))))
      · exact Kept.ite (Kept.ite (refuseRing_kept (noteSeen_kept h)) (Kept.ite (resumeEvent_kept (noteSeen_kept h))
          (publish_kept (setRing_kept (noteSeen_kept h))))) (Kept.ite (updFn_kept (noteSeen_kept h)) (setRing_kept
          (noteSeen_kept h)))

theorem ignoreBell_kept {fn n v} (h : Kept s t) : Kept s (ignoreBell fn n v t) :=
  Kept.ite h (postEvent_kept (updFn_kept h))

theorem clearOpen_kept {fn n r} (h : Kept s t) : Kept s (clearOpen fn n r t) := by
  unfold clearOpen
  split
  · exact Kept.ite (closeSubmit_kept h) (publish_kept (updRing_kept h))
  · split
    · exact updFn_kept (dropRing_kept (publish_kept (updRing_kept h)))
    · split
      · exact Kept.ite (updRing_kept h) (dropRing_kept h)
      · exact dropRing_kept h

theorem clearRefusal_kept {fn n v} (h : Kept s t) : Kept s (clearRefusal fn n v t) := h.same rfl

theorem takeBell_kept {fn n} (h : Kept s t) : Kept s (takeBell fn n t) := by
  unfold takeBell
  dsimp only
  split
  · exact h
  · split
    · exact ignoreBell_kept h
    · split
      · exact clearRefusal_kept h
      · exact Kept.ite h (Kept.ite (ignoreBell_kept h) (Kept.ite (clearOpen_kept (Kept.ite (postLost_kept
          (updRing_kept (clearRefusal_kept h))) (updRing_kept (clearRefusal_kept h)))) (Kept.ite (postLost_kept
          (updRing_kept (clearRefusal_kept h))) (updRing_kept (clearRefusal_kept h)))))

theorem resumeSubmit_kept {fn n} (h : Kept s t) : Kept s (resumeSubmit fn n t) :=
  Kept.ite h (Kept.ite (Kept.ite h (postEvent_kept (updFn_kept h))) (Kept.ite (refuseRing_kept (publish_kept
    (setRing_kept (setRing_kept (Kept.ite (noteSeen_kept (Kept.ite (noteSeen_kept (updFn_kept h)) (updFn_kept h)))
    (Kept.ite (noteSeen_kept (updFn_kept h)) (updFn_kept h))))))) (publish_kept (setRing_kept (setRing_kept (Kept.ite
    (noteSeen_kept (Kept.ite (noteSeen_kept (updFn_kept h)) (updFn_kept h))) (Kept.ite (noteSeen_kept (updFn_kept h))
    (updFn_kept h))))))))

theorem recoverFn_kept {fn} (h : Kept s t) : Kept s (recoverFn fn t) :=
  Kept.ite (Kept.foldl (updFn_kept h) (fun _ _ h1 => resumeSubmit_kept h1)) (Kept.foldl h
    (fun _ _ h1 => resumeSubmit_kept h1))

theorem readDoorbells_kept {fn} (h : Kept s t) : Kept s (readDoorbells fn t) :=
  Kept.ite h (Kept.foldl (Kept.foldl (Kept.foldl (recoverFn_kept h) (fun _ _ h1 => takeBell_kept h1))
    (fun _ _ h1 => openRing_kept h1)) (fun _ _ h1 => openRing_kept h1))

theorem readAllDoorbells_kept (h : Kept s t) : Kept s (readAllDoorbells t) :=
  Kept.foldl h (fun _ _ h1 => readDoorbells_kept h1)

theorem execDoorbellRead_kept {fn stores} (h : Kept s t) : KeptOut s (execDoorbellRead fn stores t) :=
  Kept.ite (readDoorbells_kept (hostStores_kept h)) (hostStores_kept h)

theorem execDoorbellPoll_kept {stores} (h : Kept s t) : KeptOut s (execDoorbellPoll stores t) :=
  Kept.ite (readAllDoorbells_kept (hostStores_kept h)) (hostStores_kept h)

theorem execRingNudge_kept {fn offset size stores} (h : Kept s t) :
    KeptOut s (execRingNudge fn offset size stores t) :=
  Kept.ite (readDoorbells_kept (hostStores_kept h)) (hostStores_kept h)

theorem acceptMany_kept {fn n k} (h : Kept s t) : Kept s (acceptMany fn n k t) := by
  induction k generalizing t with
  | zero => exact h
  | succ k ih =>
    unfold acceptMany
    split
    · exact h
    · exact Kept.ite h (ih (updRing_kept (acceptDesc_kept h)))

theorem execDescriptorIntake_kept {stores} (h : Kept s t) : KeptOut s (execDescriptorIntake stores t) := by
  unfold execDescriptorIntake
  dsimp only
  split
  · exact hostStores_kept h
  · split
    · exact hostStores_kept h
    · exact publish_kept (acceptMany_kept (hostStores_kept h))

theorem writeCompletion_kept {fn cn index tag status opcode detail result time} (h : Kept s t) :
    Kept s (writeCompletion fn cn index tag status opcode detail result time t) := by
  unfold writeCompletion
  dsimp only
  split
  · exact h
  · exact recordSignal_kept (updRing_kept (hostWrite_kept h))

theorem putRecord_kept {fn n} (h : Kept s t) : Kept s (putRecord fn n t) := by
  unfold putRecord
  dsimp only
  split
  · exact h
  · split
    · exact h
    · split
      · exact Kept.ite h (publish_kept (updRing_kept (setCmds_kept (writeCompletion_kept h))))
      · exact h

theorem nextRecord_kept {fn n} (h : Kept s t) : Kept s (nextRecord fn n t) := settleRing_kept (putRecord_kept h)

theorem execCompletionRecord_kept {fn ring} (h : Kept s t) : KeptOut s (execCompletionRecord fn ring t) :=
  Kept.ite (nextRecord_kept h) h

theorem walkWrite_kept {fn r fuel i} (h : Kept s t) : Kept s (walkWrite fn r fuel i t) := by
  induction fuel generalizing i t with
  | zero => exact h
  | succ n ih => exact Kept.ite h (ih (writeCompletion_kept h))

theorem walkRing_kept {fn n} (h : Kept s t) : Kept s (walkRing fn n t) := by
  unfold walkRing
  dsimp only
  split
  · exact h
  · split
    · exact h
    · exact postEvent_kept (Kept.ite (publish_kept (updRing_kept (updRing_kept (walkWrite_kept h)))) (closeSubmit_kept
        (updRing_kept (updRing_kept (walkWrite_kept h)))))

theorem walkNext_kept {fn} (h : Kept s t) : Kept s (walkNext fn t) := by
  unfold walkNext
  dsimp only
  split
  · exact updFn_kept h
  · exact Kept.ite (updFn_kept (walkRing_kept h)) (walkRing_kept h)

theorem execResetWalk_kept {fn} (h : Kept s t) : KeptOut s (execResetWalk fn t) := Kept.ite (walkNext_kept h) h

theorem execMsixModerationTimer_kept {fn ring} (h : Kept s t) : KeptOut s (execMsixModerationTimer fn ring t) := by
  unfold execMsixModerationTimer
  split
  · exact Kept.ite (signalRing_kept h) h
  · exact h

theorem unmaskVector_kept {fn v} (h : Kept s t) : Kept s (unmaskVector fn v t) :=
  Kept.ite (signalVector_kept (updFn_kept h)) (updFn_kept h)

theorem execMsixUnmask_kept {fn vector} (h : Kept s t) : KeptOut s (execMsixUnmask fn vector t) :=
  Kept.ite (unmaskVector_kept h) h

theorem finishWalks_kept {fn} (h : Kept s t) : Kept s (finishWalks fn t) :=
  Kept.foldl h (fun _ _ h1 => walkRing_kept h1)

theorem flushRecords_kept {fn} (h : Kept s t) : Kept s (flushRecords fn t) := by
  unfold flushRecords
  refine Kept.foldl h ?_
  intro _ _ h1
  split
  · exact Kept.ite (putRecord_kept h1) h1
  · exact h1

theorem resetRings_kept {fn} (h : Kept s t) : Kept s (resetRings fn t) :=
  updFn_kept (Kept.foldl (flushRecords_kept (finishWalks_kept h)) (fun _ _ h1 => Kept.ite h1 (publish_kept
    (updRing_kept h1))))

theorem abortCmd_kept {order detail} (h : Kept s t) : Kept s (abortCmd order detail t) := h.same rfl

theorem resetFunction_kept {fn} (h : Kept s t) : Kept s (resetFunction fn t).2 := by
  unfold resetFunction
  dsimp only
  split
  · dsimp only
    exact Kept.foldl h (fun _ _ h1 => stopCtx_kept h1)
  · dsimp only
    exact Kept.foldl (Kept.foldl (Kept.foldl (Kept.foldl h (fun _ _ h1 => stopCtx_kept h1))
      (fun _ _ h1 => endContext_kept h1)) (fun _ _ h1 => Kept.ite (abortCmd_kept h1) h1))
      (fun _ _ h1 => resetRings_kept h1)

theorem execFunctionLevelReset_kept {fn} (h : Kept s t) : KeptOut s (execFunctionLevelReset fn t) :=
  Kept.ite (resetFunction_kept h) h

theorem execVfEnable_kept {enable numVfs} (h : Kept s t) : KeptOut s (execVfEnable enable numVfs t) := by
  unfold execVfEnable
  extract_lets now left gone
  split
  rename_i done w e
  have hw : Kept s w := Kept.ofEq e (Kept.foldlPair h fun _ _ h => resetFunction_kept h)
  exact Kept.ite (hw.same rfl) hw

/-! ### Sys2Proof/Machine/Weights.lean -/

theorem recordExtent_kept {c} (h : Kept s t) : Kept s (recordExtent c t) := h.same rfl
theorem putAt_kept {as gs} (h : Kept s t) : Kept s (putAt as gs t) := Kept.foldl h (fun _ _ h1 => putGran_kept h1)
theorem readAt_kept {as} (h : Kept s t) : Kept s (readAt as t).2 := Kept.foldlPair h (fun _ _ h1 => loadGran_kept h1)
theorem updChain_kept {order g} (h : Kept s t) : Kept s (updChain order g t) := h.same rfl

theorem sendOffer_kept {order} (h : Kept s t) : Kept s (sendOffer order t) := by
  unfold sendOffer
  split
  · exact h
  · exact Kept.ite h (emit_kept (updChain_kept h))

theorem forwardPieces_kept {order} (h : Kept s t) : Kept s (forwardPieces order t) := by
  unfold forwardPieces
  dsimp only
  split
  · exact h
  · exact Kept.ite h (updChain_kept (Kept.foldl h (fun _ _ h1 => Kept.ite (emit_kept (storeRemote_kept
      (readAt_kept h1))) h1)))

theorem settleLoad_kept {order} (h : Kept s t) : Kept s (settleLoad order t) := by
  unfold settleLoad
  dsimp only
  split
  · exact h
  · split
    · exact h
    · split
      · exact finish_kept (bump_kept (bump_kept (recordExtent_kept h)))
      · split
        · exact h
        · split
          · exact finish_kept (bump_kept (recordExtent_kept h))
          · exact finishOk_kept (Kept.ite (bump_kept (recordExtent_kept h)) (bump_kept (bump_kept
              (recordExtent_kept h))))

theorem execWeightLoad_kept {src} (h : Kept s t) : KeptOut s (execWeightLoad src t) := by
  unfold execWeightLoad
  dsimp only
  refine runCmd_kept h ?_ (fun _ _ h1 => settleLoad_kept (forwardPieces_kept h1))
  intro _ _ h1
  split
  · exact finish_kept h1
  · split
    · exact settleLoad_kept (sendOffer_kept h1)
    · split
      · exact finishPoisoned_kept (Kept.ite (putAt_kept (sendOffer_kept h1)) (emit_kept (putAt_kept
          (sendOffer_kept h1))))
      · exact settleLoad_kept (updCmd_kept (putAt_kept (sendOffer_kept h1)))

theorem parkContext_kept {ctx} (h : Kept s t) : Kept s (parkContext ctx t) := by
  unfold parkContext
  split
  · exact h
  · exact Kept.foldl h (fun _ _ h1 => Kept.ite (settleProgram_kept (requestStop_kept h1)) h1)

theorem failReplace_kept {order status detail result} (h : Kept s t) :
    Kept s (failReplace order status detail result t) := by
  unfold failReplace
  dsimp only
  split
  · exact h
  · exact finish_kept (recordErr_kept (bump_kept (Kept.ite (parkContext_kept (updCtx_kept h)) h)))

theorem setOrigins_kept {c upTo} (h : Kept s t) : Kept s (setOrigins c upTo t) := h.same rfl

theorem rewriteNow_kept {order} (h : Kept s t) : Kept s (rewriteNow order t) := by
  unfold rewriteNow
  dsimp only
  split
  · exact h
  · split
    · exact h
    · split
      · exact sendOffer_kept (updCmd_kept h)
      · split
        · exact failReplace_kept (recordErr_kept (takeNat_kept (Kept.ite (setOrigins_kept (putAt_kept (sendOffer_kept
            (updCmd_kept h)))) (emit_kept (setOrigins_kept (putAt_kept (sendOffer_kept (updCmd_kept h))))))))
        · exact setOrigins_kept (putAt_kept (updCmd_kept (sendOffer_kept (updCmd_kept h))))

theorem execWeightReplace_kept {src} (h : Kept s t) : KeptOut s (execWeightReplace src t) := by
  unfold execWeightReplace
  refine runCmd_kept h ?_ (fun _ _ h1 => forwardPieces_kept (rewriteNow_kept h1))
  intro _ _ h1
  split
  · exact finish_kept h1
  · exact h1

theorem emptyPools_kept {ctx first n} (h : Kept s t) : Kept s (emptyPools ctx first n t) := h.same rfl

theorem releaseBarrier_kept {ctx} (h : Kept s t) : Kept s (releaseBarrier ctx t) := by
  unfold releaseBarrier
  dsimp only
  split
  · exact h
  · split
    · exact h
    · split
      · exact h
      · split
        · exact finishOk_kept (bump_kept (emptyPools_kept (primeContext_kept (updCtx_kept h))))
        · exact primeContext_kept (updCtx_kept h)

theorem releaseNow_kept {ctx} (h : Kept s t) : Kept s (releaseNow ctx t) := Kept.ite h (releaseBarrier_kept h)

theorem execReplaceRewriteDone_kept {ctx} (h : Kept s t) : KeptOut s (execReplaceRewriteDone ctx t) := by
  unfold execReplaceRewriteDone
  dsimp only
  split
  · exact h
  · split
    · exact h
    · split
      · exact forwardPieces_kept (rewriteNow_kept h)
      · split
        · exact forwardPieces_kept (rewriteNow_kept h)
        · split
          · exact failReplace_kept (bump_kept (forwardPieces_kept (rewriteNow_kept h)))
          · split
            · exact forwardPieces_kept (rewriteNow_kept h)
            · split
              · exact failReplace_kept (forwardPieces_kept (rewriteNow_kept h))
              · exact releaseNow_kept (setCounter_kept (updCtx_kept (emptyPools_kept (updCmd_kept (bump_kept (Kept.ite
                  (forwardPieces_kept (rewriteNow_kept h)) (bump_kept (forwardPieces_kept (rewriteNow_kept h)))))))))

theorem execChainOffer_kept {src} (h : Kept s t) : KeptOut s (execChainOffer src t) := by
  unfold execChainOffer
  dsimp only
  split
  · exact h
  · exact Kept.ite h (Kept.ite (sendOffer_kept h) (Kept.ite (settleLoad_kept (updChain_kept h)) (Kept.ite
      (updChain_kept h) (failReplace_kept (bump_kept (updChain_kept h))))))

theorem execChainReady_kept {src} (h : Kept s t) : KeptOut s (execChainReady src t) := by
  unfold execChainReady
  split
  · exact h
  · exact Kept.ite h (settleLoad_kept (forwardPieces_kept (updChain_kept h)))

theorem execChainOfferReceive_kept {dev opcode srcAddr destAddr length} (h : Kept s t) :
    KeptOut s (execChainOfferReceive dev opcode srcAddr destAddr length t) := by
  unfold execChainOfferReceive
  dsimp only
  split
  · exact Kept.ite (Kept.foldl h (fun _ _ h1 => rewriteNow_kept h1)) h
  · exact emit_kept (updChain_kept (Kept.ite (Kept.foldl h (fun _ _ h1 => rewriteNow_kept h1)) h))

theorem execPieceNotice_kept {src piece poisoned} (h : Kept s t) :
    KeptOut s (execPieceNotice src piece poisoned t) := by
  unfold execPieceNotice
  dsimp only
  split
  · exact h
  · exact Kept.ite h (Kept.ite (Kept.ite (finishPoisoned_kept (Kept.ite h (emit_kept h))) (failReplace_kept
      (setOrigins_kept (recordErr_kept (takeNat_kept (Kept.ite h (emit_kept h))))))) (Kept.ite h (settleLoad_kept
      (forwardPieces_kept (Kept.ite (setOrigins_kept (updCmd_kept h)) (updCmd_kept h))))))

theorem execPeerSourceTimeout_kept {src} (h : Kept s t) : KeptOut s (execPeerSourceTimeout src t) := by
  unfold execPeerSourceTimeout
  split
  · exact h
  · exact Kept.ite h (Kept.ite (finish_kept h) (failReplace_kept (setOrigins_kept h)))

theorem startReload_kept {ctx layer} (h : Kept s t) : Kept s (startReload ctx layer t) :=
  Kept.foldl (bump_kept (updCtx_kept h)) (fun _ _ h1 => Kept.ite (Kept.ite (startRemote_kept h1) (newXfer_kept
    (putGrans_kept (loadGrans_kept h1)))) h1)

theorem takePoison_kept {ctx k} (h : Kept s t) : Kept s (takePoison ctx k t) := by
  unfold takePoison
  dsimp only
  split
  · exact h
  · exact Kept.ite (updCtx_kept h) (Kept.foldl (Kept.foldl (updCtx_kept (updCtx_kept h)) (fun _ _ h1 => Kept.ite h1
      (settleProgram_kept (requestStop_kept h1)))) (fun _ _ h1 => startReload_kept h1))

theorem endReload_kept {ctx layer x} (h : Kept s t) : Kept s (endReload ctx layer x t).2 := by
  unfold endReload
  dsimp only
  split
  · split
    · split
      · dsimp only
        exact recordErr_kept (bump_kept (updCtx_kept h))
      · dsimp only
        exact updCtx_kept h
    · dsimp only
      exact recordErr_kept (bump_kept (updCtx_kept h))
  · split
    · dsimp only
      exact recordErr_kept (bump_kept (updCtx_kept h))
    · dsimp only
      exact updCtx_kept (putGrans_kept h)

theorem execReloadDone_kept {ctx} (h : Kept s t) : KeptOut s (execReloadDone ctx t) := by
  unfold execReloadDone
  dsimp only
  split
  · exact h
  · split
    · exact h
    · split
      · exact h
      · split
        · refine releaseNow_kept ?_
          refine setFab_kept ?_
          refine Kept.foldlPair h ?_
          intro _ _ h1
          refine Kept.foldl₂ h1 ?_
          intro _ _ h2
          dsimp only
          exact endReload_kept h2
        · refine updCtx_kept ?_
          refine parkContext_kept ?_
          refine setFab_kept ?_
          refine Kept.foldlPair h ?_
          intro _ _ h1
          refine Kept.foldl₂ h1 ?_
          intro _ _ h2
          dsimp only
          exact endReload_kept h2

theorem raiseBarrier_kept {ctx k} (h : Kept s t) : Kept s (raiseBarrier ctx k t) := by
  unfold raiseBarrier
  dsimp only
  split
  · exact h
  · split
    · exact h
    · split
      · exact h
      · exact Kept.ite (updCtx_kept h) h

theorem keepRungs_kept {ctx found held} (h : Kept s t) : Kept s (keepRungs ctx found held t) := h.same rfl

theorem tickBarrier_kept {ctx k} (h : Kept s t) : Kept s (tickBarrier ctx k t) :=
  updCtx_kept (Kept.ite (bump_kept (raiseBarrier_kept (Kept.ite (takePoison_kept (keepRungs_kept h))
    (releaseBarrier_kept (takePoison_kept (keepRungs_kept h)))))) (raiseBarrier_kept (Kept.ite (takePoison_kept
    (keepRungs_kept h)) (releaseBarrier_kept (takePoison_kept (keepRungs_kept h))))))

/-! ### Sys2Proof/Machine/HerdTime.lean -/

theorem idleCycle_kept (h : Kept s t) : Kept s (idleCycle t) := Kept.ite h (updHerd_kept h)
theorem stepTo_kept {x} (h : Kept s t) : Kept s (stepTo x t) := h.same rfl
theorem stepBy_kept {d} (h : Kept s t) : Kept s (stepBy d t) := h.same rfl
theorem reportGuard_kept {before} (h : Kept s t) : Kept s (reportGuard before t) := Kept.ite (emit_kept h) h

theorem takeGuard_kept {g sentAt} (h : Kept s t) : Kept s (takeGuard g sentAt t) :=
  Kept.ite (updHerd_kept h) (Kept.ite h (updHerd_kept h))

theorem stepDown_kept {epoch} (h : Kept s t) : Kept s (stepDown epoch t) := h.same rfl

theorem receive_kept {x m} (h : Kept s t) : Kept s (receive x m t).2 := by
  unfold receive
  dsimp only
  split
  · dsimp only
    exact Kept.ite (bump_kept h) h
  · split
    · exact h
    · split
      · dsimp only
        exact bump_kept h
      · split
        · exact h
        · split
          · split
            · dsimp only
              exact Kept.ite (stepDown_kept h) h
            · dsimp only
              exact updHerd_kept (Kept.ite (stepDown_kept h) h)
          · dsimp only
            exact Kept.ite (updHerd_kept (Kept.ite (stepDown_kept h) h)) (Kept.ite (stepDown_kept h) h)

theorem adoptMaster_kept {dev epoch} (h : Kept s t) : Kept s (adoptMaster dev epoch t) := h.same rfl

theorem leaveToHerd_kept (h : Kept s t) : Kept s (leaveToHerd t) :=
  Kept.ite (postEvent_kept (breakSpan_kept (Kept.same (Kept.toMode (m := .herd) (by decide) (updHerd_kept
    (leaveFrames_kept h))) rfl))) (updHerd_kept h)

theorem servo_kept {t1 t2} (h : Kept s t) : Kept s (servo t1 t2 t).2 := by
  unfold servo
  dsimp only
  split
  · exact h
  · split
    · exact h
    · dsimp only
      exact updHerd_kept h

theorem herdTimeFault_kept {theta} (h : Kept s t) : Kept s (herdTimeFault theta t) :=
  leaveToHerd_kept (recordErr_kept h)

theorem sendDelayReq_kept {dst t1 t2} (h : Kept s t) : Kept s (sendDelayReq dst t1 t2 t) :=
  sendHerd_kept (updHerd_kept h)

theorem sweep_kept (h : Kept s t) : Kept s (sweep t) := by
  unfold sweep
  dsimp only
  split
  · exact h
  · split
    · exact sendDelayReq_kept (updHerd_kept h)
    · exact h

theorem delayAfterSync_kept {t1 t2} (h : Kept s t) : Kept s (delayAfterSync t1 t2 t) :=
  Kept.ite (sendDelayReq_kept (updHerd_kept h)) (updHerd_kept h)

theorem sendJoin_kept (h : Kept s t) : Kept s (sendJoin t) := broadcastHerd_kept h
theorem joinWhenLocked_kept (h : Kept s t) : Kept s (joinWhenLocked t) := Kept.ite (updHerd_kept (sendJoin_kept h)) h
theorem missedSlip_kept {newS sentAt} (h : Kept s t) : Kept s (missedSlip newS sentAt t) := takeSlip_kept h

theorem takeSchedule_kept {m first fresh} (h : Kept s t) : Kept s (takeSchedule m first fresh t) :=
  Kept.ite (updHerd_kept h) (Kept.ite h (takeGuard_kept (updHerd_kept (Kept.ite (Kept.ite (missedSlip_kept h) h)
    (updHerd_kept h)))))

theorem takeSync_kept {m} (h : Kept s t) : Kept s (takeSync m t) := by
  unfold takeSync
  extract_lets first fresh a t1 b c t2
  have ha : Kept s a := Kept.ite (adoptMaster_kept h) h
  have hb : Kept s b := updHerd_kept (beginInterval_kept ha)
  have hc : Kept s c := Kept.ite (updHerd_kept (stepTo_kept hb)) hb
  refine Kept.ite ha ?_
  split
  · rename_i e
    exact herdTimeFault_kept (Kept.ofEq e (servo_kept hc))
  · rename_i e
    exact joinWhenLocked_kept (sweep_kept (delayAfterSync_kept (updHerd_kept (takeSchedule_kept (Kept.ofEq e
      (servo_kept hc))))))

theorem execSync_kept {m} (h : Kept s t) : KeptOut s (execSync m t) :=
  Kept.ite (takeSync_kept (receive_kept h)) (receive_kept h)

theorem execDelayReq_kept {m} (h : Kept s t) : KeptOut s (execDelayReq m t) :=
  Kept.ite (receive_kept h) (sendHerd_kept (Kept.ite (updHerd_kept (receive_kept h)) (receive_kept h)))

theorem takeSample_kept {sample} (h : Kept s t) : Kept s (takeSample sample t) :=
  Kept.ite (updHerd_kept (updHerd_kept h)) (updHerd_kept (stepBy_kept (updHerd_kept (updHerd_kept h))))

theorem execDelayResp_kept {m} (h : Kept s t) : KeptOut s (execDelayResp m t) := by
  unfold execDelayResp
  dsimp only
  split
  · exact receive_kept h
  · split
    · exact receive_kept h
    · exact Kept.ite (receive_kept h) (Kept.ite (takeSample_kept (updHerd_kept (receive_kept h))) (updHerd_kept
        (updHerd_kept (receive_kept h))))

theorem execSlipReq_kept {m} (h : Kept s t) : KeptOut s (execSlipReq m t) :=
  Kept.ite (receive_kept h) (takeRequest_kept (receive_kept h))

theorem execSlip_kept {m} (h : Kept s t) : KeptOut s (execSlip m t) :=
  Kept.ite (receive_kept h) (takeSlip_kept (receive_kept h))

theorem execGuardWindowOpen_kept (h : Kept s t) : KeptOut s (execGuardWindowOpen t) :=
  Kept.ite h (decideWindow_kept (advanceTo_kept h))

theorem backupSlip_kept {k} (h : Kept s t) : Kept s (backupSlip k t) :=
  Kept.ite (advanceTo_kept (decideWindow_kept (advanceTo_kept h))) (broadcastSlip_kept (bump_kept (advanceTo_kept
    (decideWindow_kept (advanceTo_kept h)))))

theorem execBackupBroadcast_kept (h : Kept s t) : KeptOut s (execBackupBroadcast t) := Kept.ite h (backupSlip_kept h)

theorem execGuardPoint_kept (h : Kept s t) : KeptOut s (execGuardPoint t) :=
  Kept.ite h (Kept.foldl (advanceTo_kept h) (fun _ _ h1 => requestSlip_kept h1))

theorem requestFallback_kept {k e} (h : Kept s t) : Kept s (requestFallback k e t) :=
  Kept.ite (bump_kept (requestSlip_kept h)) (requestSlip_kept h)

theorem execFallbackCheck_kept (h : Kept s t) : KeptOut s (execFallbackCheck t) :=
  Kept.ite h (Kept.foldl (advanceTo_kept h) (fun _ _ h1 => requestFallback_kept h1))

theorem sendFrameChange_kept (h : Kept s t) : Kept s (sendFrameChange t) := by
  unfold sendFrameChange
  split
  · exact broadcastHerd_kept h
  · exact h

theorem sendSync_kept (h : Kept s t) : Kept s (sendSync t) :=
  sendFrameChange_kept (takeGuard_kept (broadcastHerd_kept (reportGuard_kept (updHerd_kept (beginInterval_kept h)))))

theorem execSyncInterval_kept (h : Kept s t) : KeptOut s (execSyncInterval t) :=
  Kept.ite h (updHerd_kept (sendSync_kept (advanceTo_kept h)))

theorem execJoin_kept {m} (h : Kept s t) : KeptOut s (execJoin m t) :=
  Kept.ite (receive_kept h) (Kept.ite (sendHerd_kept (receive_kept h)) (Kept.ite (receive_kept h) (updHerd_kept
    (dropCopies_kept (receive_kept h)))))

theorem answerJoin_kept {c} (h : Kept s t) : Kept s (answerJoin c t) := by
  unfold answerJoin
  dsimp only
  exact updHerd_kept (broadcastHerd_kept h)

theorem answerJoins_kept (h : Kept s t) : Kept s (answerJoins t) :=
  Kept.ite h (Kept.foldl h (fun _ _ h1 => answerJoin_kept h1))

theorem execTakeover_kept {m} (h : Kept s t) : KeptOut s (execTakeover m t) :=
  Kept.ite (receive_kept h) (Kept.ite (updHerd_kept (adoptMaster_kept (receive_kept h))) (receive_kept h))

theorem execFrameChange_kept {m} (h : Kept s t) : KeptOut s (execFrameChange m t) :=
  Kept.ite (receive_kept h) (updHerd_kept (receive_kept h))

theorem execMasterLost_kept (h : Kept s t) : KeptOut s (execMasterLost t) :=
  Kept.ite h (timeBroadcast_kept (broadcastHerd_kept (updHerd_kept (Kept.ite h (advanceTo_kept h)))))

theorem execHoldoverExpiry_kept (h : Kept s t) : KeptOut s (execHoldoverExpiry t) :=
  Kept.ite (leaveToHerd_kept (advanceTo_kept h)) h

/-! ### Sys2Proof/Machine/Tick.lean -/

theorem eachCtx_kept {f} (h : Kept s t) (hf : ∀ y0 u, Kept s u → Kept s (f y0 u)) : Kept s (eachCtx f t) :=
  Kept.foldl h (fun _ _ h1 => hf _ _ h1)

theorem eachSlot_kept {f} (h : Kept s t) (hf : ∀ y0 u, Kept s u → Kept s (f y0 u)) : Kept s (eachSlot f t) :=
  Kept.foldl h (fun _ _ h1 => hf _ _ h1)

theorem eachProgram_kept {f} (h : Kept s t) (hf : ∀ y0 y1 u, Kept s u → Kept s (f y0 y1 u)) :
    Kept s (eachProgram f t) :=
  Kept.foldl h (fun _ _ h1 => hf _ _ _ h1)

theorem nextPrompt_kept {slot done} (h : Kept s t) : Kept s (nextPrompt slot done t) := h.same rfl

theorem endPrompt_kept {slot order status detail result} (h : Kept s t) :
    Kept s (endPrompt slot order status detail result t) :=
  nextPrompt_kept (finish_kept h)

theorem promptWork_kept {slot} (h : Kept s t) : Kept s (promptWork slot t) := by
  unfold promptWork
  dsimp only
  split
  · exact h
  · split
    · exact h
    · split
      · exact h
      · split
        · exact endPrompt_kept h
        · split
          · rename_i z2 e3
            have h1 : Kept s z2 := by
              refine Kept.ofEq e3 ?_
              split
              · dsimp only
                exact takeNat_kept h
              · exact prefillKv_kept (takeNat_kept h)
            exact h1
          · rename_i z2 e3
            have h1 : Kept s z2 := by
              refine Kept.ofEq e3 ?_
              split
              · dsimp only
                exact takeNat_kept h
              · exact prefillKv_kept (takeNat_kept h)
            exact Kept.ite (Kept.ite h1 (updStream_kept (updCmd_kept h1))) (updStream_kept (takeNat_kept (Kept.ite h1
              (updStream_kept (updCmd_kept h1)))))

theorem handOver_kept {slot x c x1} (h : Kept s t) : Kept s (handOver slot x c x1 t) := by
  unfold handOver
  dsimp only
  split
  · exact endPrompt_kept h
  · split
    · split
      · split
        · rename_i z2 e3
          have h1 : Kept s z2 := Kept.ofEq e3 (allHome_kept h)
          exact emit_kept (updCmd_kept h1)
        · rename_i z2 e3
          have h1 : Kept s z2 := Kept.ofEq e3 (allHome_kept h)
          exact h1
      · exact emit_kept (updCmd_kept h)
    · split
      · exact takeNat_kept h
      · exact endPrompt_kept (updStream_kept (freeKv_kept (takeNat_kept h)))
      · exact endPrompt_kept (takeNat_kept h)
      · exact endPrompt_kept (takeNat_kept h)
      · exact endPrompt_kept (takeNat_kept h)

theorem settleToken_kept {slot} (h : Kept s t) : Kept s (settleToken slot t) := by
  unfold settleToken
  split
  · exact h
  · split
    · exact h
    · split
      · exact Kept.ite (answerHandover_kept h) (Kept.ite h (answerHandover_kept (updStream_kept (emitStep_kept h))))
      · exact Kept.ite (handOver_kept h) (Kept.ite (endPrompt_kept h) (Kept.ite h (endPrompt_kept (emitStep_kept h))))

theorem tickSchedule_kept {k} (h : Kept s t) : Kept s (tickSchedule k t) := by
  unfold tickSchedule
  extract_lets a
  have ha : Kept s a := by
    simp only [a]
    split
    · exact Kept.ite (updHerd_kept h) h
    · exact h
  split
  · refine Kept.ite ?_ ha
    dsimp only
    exact Kept.ite (reportGuard_kept (updHerd_kept ha)) (updHerd_kept ha)
  · exact ha

theorem tickSticky_kept {ctx prog} (h : Kept s t) : Kept s (tickSticky ctx prog t) := by
  unfold tickSticky
  dsimp only
  split
  · exact h
  · exact updProg_kept (Kept.foldl (Kept.foldl h (fun _ _ h1 => Kept.ite (bump_kept h1) h1)) (fun _ _ h1 => Kept.ite
      (bump_kept h1) h1))

theorem tickDeadline_kept {now slot} (h : Kept s t) : Kept s (tickDeadline now slot t) := by
  unfold tickDeadline
  split
  · exact h
  · exact Kept.ite h (Kept.ite (finalRecord_kept h) (updStream_kept h))

theorem tickLoss_kept {slot} (h : Kept s t) : Kept s (tickLoss slot t) := by
  unfold tickLoss
  dsimp only
  split
  · exact h
  · split
    · exact h
    · split
      · exact endPrompt_kept (freeKv_kept (finalRecord_kept h))
      · exact freeKv_kept (finalRecord_kept h)

theorem tickPools_kept {ctx} (h : Kept s t) : Kept s (tickPools ctx t) := h.same rfl

theorem tickChanges_kept {k} (h : Kept s t) : Kept s (tickChanges k t) :=
  settlePins_kept (eachCtx_kept (eachSlot_kept (eachSlot_kept (eachCtx_kept (eachProgram_kept (tickPower_kept
    (takeDues_kept (tickSchedule_kept h))) (fun _ _ _ h1 => tickSticky_kept h1)) (fun _ _ h1 => tickBarrier_kept h1))
    (fun _ _ h1 => tickLoss_kept h1)) (fun _ _ h1 => tickDeadline_kept h1)) (fun _ _ h1 => tickPools_kept h1))

theorem tickClear_kept (h : Kept s t) : Kept s (tickClear t) := by
  unfold tickClear
  dsimp only
  refine eachSlot_kept ?_ (fun _ _ h1 => updStream_kept h1)
  refine eachProgram_kept h ?_
  intro _ _ _ h1
  split
  · exact Kept.ite (clearEvents_kept (updProg_kept h1)) (updProg_kept h1)
  · exact updProg_kept h1

theorem tickSignals_kept {k ctx prog again} (h : Kept s t) : Kept s (tickSignals k ctx prog again t) := by
  unfold tickSignals
  dsimp only
  split
  · exact h
  · refine setFab_kept ?_
    refine Kept.foldl h ?_
    intro _ _ h1
    split
    · split
      · exact signalEvent_kept h1
      · exact h1
    · exact h1

theorem tickIssues_kept {k ctx prog} (h : Kept s t) : Kept s (tickIssues k ctx prog t) := by
  unfold tickIssues
  dsimp only
  split
  · exact h
  · split
    · exact h
    · exact Kept.ite (updProg_kept h) (Kept.foldl (updProg_kept (updProg_kept h)) (fun _ _ h1 => Kept.foldl h1
        (fun _ _ h2 => Kept.ite h2 (Kept.ite (holdEntry_kept h2) (startEntry_kept (Kept.ite (bump_kept h2) h2))))))

theorem tickRestart_kept (h : Kept s t) : Kept s (tickRestart t) := Kept.ite h (h.same rfl)

theorem countFrames_kept (h : Kept s t) : Kept s (countFrames t) := by
  unfold countFrames
  split
  · exact h
  · refine eachProgram_kept h ?_
    intro _ _ _ h1
    split
    · exact Kept.ite (Kept.foldl h1 (fun _ _ h2 => updCmd_kept h2)) h1
    · exact h1

theorem tickReads_kept (h : Kept s t) : Kept s (tickReads t) := by
  unfold tickReads
  dsimp only
  refine eachSlot_kept h ?_
  intro _ _ h1
  split
  · exact h1
  · exact Kept.ite (readConsumer_kept (Kept.ite (readHostDraft_kept h1) h1)) (Kept.ite (readHostDraft_kept h1) h1)

theorem endFrame_kept {k} (h : Kept s t) : Kept s (endFrame k t) := by
  unfold endFrame
  dsimp only
  exact updHerd_kept (eachSlot_kept h fun _ _ h => updStream_kept h)

theorem tickAgain_kept {k again} (h : Kept s t) : Kept s (tickAgain k again t) :=
  Kept.ite (readAllDoorbells_kept (tickRestart_kept (eachProgram_kept (tickClear_kept (updHerd_kept h))
    (fun _ _ _ h1 => tickSignals_kept h1)))) (tickRestart_kept (eachProgram_kept (tickClear_kept (updHerd_kept h))
    (fun _ _ _ h1 => tickSignals_kept h1)))

theorem abandonFrame_kept (h : Kept s t) : Kept s (abandonFrame t) :=
  settleAll_kept (owePrompts_kept (abandonFrames_kept h))

theorem tickWork_kept {k} (h : Kept s t) : Kept s (tickWork k t) :=
  answerJoins_kept (eachSlot_kept (eachSlot_kept (countFrames_kept (eachProgram_kept (Kept.ite (tickReads_kept
    (tickAgain_kept (endFrame_kept (tickChanges_kept (breakSpan_kept (updHerd_kept (Kept.ite
    (abandonFrame_kept h) h))))))) (eachCtx_kept (tickReads_kept (tickAgain_kept (endFrame_kept (tickChanges_kept
    (breakSpan_kept (updHerd_kept (Kept.ite (abandonFrame_kept h) h))))))) (fun _ _ h1 => tickReturns_kept
    (retryHandovers_kept h1)))) (fun _ _ _ h1 => tickIssues_kept h1))) (fun _ _ h1 => promptWork_kept h1))
    (fun _ _ h1 => settleToken_kept h1))

theorem enterReady_kept (h : Kept s t) : Kept s (enterReady t) := by
  unfold enterReady
  dsimp only
  refine postEvent_kept ?_
  refine updHerd_kept ?_
  split
  · exact finishOk_kept (breakSpan_kept (Kept.same (Kept.toMode (m := .ready) (by decide) h) rfl))
  · exact breakSpan_kept (Kept.same (Kept.toMode (m := .ready) (by decide) h) rfl)

theorem windowWork_kept {k} (h : Kept s t) : Kept s (windowWork k t) :=
  Kept.ite h (Kept.ite (decideWindow_kept (advanceTo_kept h)) (Kept.ite (backupSlip_kept h) h))

theorem doTick_kept (h : Kept s t) : Kept s (doTick t) :=
  Kept.ite (windowWork_kept h) (Kept.ite (Kept.ite (tickAgain_kept (updHerd_kept (Kept.ite (enterReady_kept (emit_kept
    (advanceTo_kept (windowWork_kept h)))) (emit_kept (advanceTo_kept (windowWork_kept h)))))) (tickWork_kept
    (Kept.ite (enterReady_kept (emit_kept (advanceTo_kept (windowWork_kept h)))) (emit_kept (advanceTo_kept
    (windowWork_kept h)))))) (Kept.ite (readAllDoorbells_kept (tickSchedule_kept (updHerd_kept (Kept.ite
    (enterReady_kept (emit_kept (advanceTo_kept (windowWork_kept h)))) (emit_kept (advanceTo_kept
    (windowWork_kept h))))))) (tickSchedule_kept (updHerd_kept (Kept.ite (enterReady_kept (emit_kept (advanceTo_kept
    (windowWork_kept h)))) (emit_kept (advanceTo_kept (windowWork_kept h))))))))

theorem execTick_kept {stores} (h : Kept s t) : KeptOut s (execTick stores t) :=
  Kept.ite (doTick_kept (hostStores_kept h)) (hostStores_kept h)

/-! ### Sys2Proof/Machine/Join.lean -/

theorem disableDiffs_kept {ds} (h : Kept s t) : Kept s (disableDiffs ds t) :=
  Kept.foldl h (fun _ _ h1 => Kept.ite (leaveActive_kept h1) h1)

theorem enterHerd_kept {order did} (h : Kept s t) : Kept s (enterHerd order did t) := by
  unfold enterHerd
  dsimp only
  exact updHerd_kept (breakSpan_kept (Kept.toMode (by decide) (updCmd_kept (flushCache_kept h))))

theorem execHerdJoin_kept {src} (h : Kept s t) : KeptOut s (execHerdJoin src t) :=
  runCmd_kept h (fun _ _ h1 => Kept.ite (finishNoRes_kept h1) (Kept.ite (finishPoisoned_kept h1) (Kept.ite
    (finish_kept (updHerd_kept h1)) (enterHerd_kept (disableDiffs_kept (updHerd_kept h1))))))
    (fun _ _ h1 => noAgain_kept h1)

theorem leaveHerd_kept (h : Kept s t) : Kept s (leaveHerd t) := by
  unfold leaveHerd
  dsimp only
  refine eachCtx_kept ?_ (fun _ _ h1 => raiseBarrier_kept (releaseBarrier_kept h1))
  refine applyCaps_kept ?_
  refine takeDues_kept ?_
  refine breakSpan_kept ?_
  refine Kept.same (Kept.toMode (m := .trained) (by decide) ?_) rfl
  refine updHerd_kept ?_
  split
  · exact finishNoRes_kept (Kept.ite (leaveFrames_kept h) h)
  · exact Kept.ite (leaveFrames_kept h) h

theorem stopAll_kept (h : Kept s t) : Kept s (stopAll t) := by
  unfold stopAll
  refine eachProgram_kept h ?_
  intro _ _ _ h1
  split
  · exact settleProgram_kept (stopProgram_kept h1)
  · exact h1

theorem slipPrompts_kept (h : Kept s t) : Kept s (slipPrompts t) := settleAll_kept (owePrompts_kept h)

theorem requestAll_kept (h : Kept s t) : Kept s (requestAll t) := by
  unfold requestAll
  refine eachProgram_kept h ?_
  intro _ _ _ h1
  split
  · exact requestStop_kept h1
  · exact h1

theorem execHerdLeave_kept {src} (h : Kept s t) : KeptOut s (execHerdLeave src t) :=
  runCmd_kept h (fun _ _ h1 => Kept.ite (Kept.ite (finishNoRes_kept h1) (finishOk_kept (leaveHerd_kept
    (slipPrompts_kept h1)))) (Kept.ite (requestAll_kept h1) (finishOk_kept (leaveHerd_kept (slipPrompts_kept
    (stopAll_kept (requestAll_kept h1))))))) (fun _ _ h1 => Kept.ite (Kept.ite (finishNoRes_kept h1) (finishOk_kept
    (leaveHerd_kept (slipPrompts_kept h1)))) (Kept.ite (requestAll_kept h1) (finishOk_kept (leaveHerd_kept
    (slipPrompts_kept (stopAll_kept (requestAll_kept h1)))))))

theorem execFramePolicy_kept {src} (h : Kept s t) : KeptOut s (execFramePolicy src t) :=
  runCmd_kept h (fun _ _ h1 => Kept.ite (finishNoRes_kept h1) (finishOk_kept (sendFrameChange_kept
    (updHerd_kept h1)))) (fun _ _ h1 => noAgain_kept h1)

theorem backToTrained_kept {status detail} (h : Kept s t) : Kept s (backToTrained status detail t) := by
  unfold backToTrained
  dsimp only
  split
  · exact finish_kept (leaveHerd_kept (updHerd_kept h))
  · exact leaveHerd_kept (updHerd_kept h)

theorem execJoinAck_kept {m} (h : Kept s t) : KeptOut s (execJoinAck m t) := by
  unfold execJoinAck
  dsimp only
  have hr : Kept s (receive 9 m t).2 := receive_kept h
  refine Kept.ite hr ?_
  split
  · exact updHerd_kept hr
  · exact Kept.ite (postEvent_kept (backToTrained_kept hr)) (backToTrained_kept hr)
  · exact updHerd_kept hr
  · exact bump_kept hr

theorem execJoinResend_kept (h : Kept s t) : KeptOut s (execJoinResend t) := Kept.ite (sendJoin_kept h) h

theorem execHerdJoinTimeout_kept (h : Kept s t) : KeptOut s (execHerdJoinTimeout t) :=
  Kept.ite (backToTrained_kept h) h

theorem execHerdForm_kept (h : Kept s t) : KeptOut s (execHerdForm t) :=
  Kept.ite (tickWork_kept (enterReady_kept (emit_kept (reportGuard_kept (updHerd_kept (updHerd_kept
    (stepTo_kept h))))))) h

/-! ### Sys2Proof/Machine/Reset.lean -/

theorem resetAll_kept {cause} (h : Kept s t) : Kept s (resetAll cause t) := by
  unfold resetAll
  split
  · exact h
  · refine faultEdge_kept ⟨fun k => ⟨(h.mem k).1, ?_⟩, h.fuse, h.pending, fun k => nomatch k⟩
    exact ⟨⟨rfl, rfl⟩, rfl, rfl⟩

theorem fatalError_kept {e} (h : Kept s t) : Kept s (fatalError e t) :=
  resetAll_kept (faultEdge_kept (Kept.same (recordErr_kept h) rfl))

theorem resetDomain_kept {i} (h : Kept s t) : Kept s (resetDomain i t) := by
  unfold resetDomain
  dsimp only
  split
  · exact h.same rfl
  · exact breakSpan_kept (h.same rfl)
  · exact h.same rfl
  · exact h.same rfl
  · exact h.same rfl
  · exact h.same rfl
  · exact h.same rfl

/-! ### Sys2Proof/Machine/Stacks.lean -/

theorem execRefresh_kept {stack pc bank idle} (h : Kept s t) : KeptOut s (execRefresh stack pc bank idle t) :=
  Kept.ite h (Kept.ite (updStack_kept h) (Kept.ite (updStack_kept h) (bump_kept (updStack_kept h))))

theorem execStackTempReading_kept {stack temps} (h : Kept s t) : KeptOut s (execStackTempReading stack temps t) :=
  Kept.ite h (noteReasons_kept (Kept.ite (recordErr_kept (updStack_kept (setCounter_kept (bump_kept h))))
    (updStack_kept (setCounter_kept (bump_kept h)))))

theorem execStackThrottleFall_kept {stack} (h : Kept s t) : KeptOut s (execStackThrottleFall stack t) :=
  Kept.ite h (noteReasons_kept (updStack_kept h))

theorem storeBad_kept {a} (h : Kept s t) : Kept s (storeBad t a) := by
  unfold storeBad
  dsimp only
  split
  · split
    · exact h
    · exact Kept.ite (recordErr_kept (bump_kept (t1Put_kept (h.same rfl)))) (h.same rfl)
  · exact applyMemErr_kept h

theorem arrayErr_kept {kind unit detail} (h : Kept s t) : Kept s (arrayErr kind unit detail t) := recordErr_kept h

theorem coreArrayErr_kept {e unit detail} (h : Kept s t) : Kept s (coreArrayErr e unit detail t) := by
  unfold coreArrayErr
  split <;> exact arrayErr_kept h

theorem bankBad_kept {e unit} (h : Kept s t) : Kept s (bankBad e unit t) := by
  unfold bankBad
  split
  · exact h
  · exact coreArrayErr_kept (setTask_kept h)

theorem bufferBad_kept {e unit} (h : Kept s t) : Kept s (bufferBad e unit t) := by
  unfold bufferBad
  dsimp only
  split
  · exact h
  · split
    · exact h
    · exact Kept.ite (tileFault_kept (takeNat_kept (coreArrayErr_kept h))) (setTask_kept (fetchCode_kept
        (coreArrayErr_kept h)))

theorem directoryBad_kept {a} (h : Kept s t) : Kept s (directoryBad a t) :=
  freeRegions_kept (Kept.foldl (Kept.foldl (arrayErr_kept h) (fun _ _ h1 => emit_kept h1))
    (fun _ _ h1 => freeEntry_kept h1))

theorem scrubBad_kept {x} (h : Kept s t) : Kept s (scrubBad t x) := by
  unfold scrubBad
  dsimp only
  split
  · exact storeBad_kept h
  · exact bankBad_kept h
  · exact bufferBad_kept h
  · exact arrayErr_kept (h.same rfl)
  · exact directoryBad_kept h
  · exact linkGoesDown_kept (arrayErr_kept h)
  · exact fatalError_kept h

theorem execStoreScrub_kept {corrected bad} (h : Kept s t) : KeptOut s (execStoreScrub corrected bad t) :=
  Kept.ite h (Kept.foldl (Kept.foldl h (fun _ _ h1 => Kept.ite (countCorrected_kept h1) h1))
    (fun _ _ h1 => scrubBad_kept h1))

theorem meshExhausted_kept {edge granules} (h : Kept s t) : Kept s (meshExhausted edge granules t) := by
  unfold meshExhausted
  extract_lets a blank b r
  have hb : Kept s b := recordErr_kept (Kept.foldl h fun _ _ h => storeGran_kept h)
  split
  split
  exact Kept.ite (fatalError_kept (hb.same rfl)) (hb.same rfl)

theorem execMeshFlitReceive_kept {edge data crc granules} (h : Kept s t) :
    KeptOut s (execMeshFlitReceive edge data crc granules t) :=
  Kept.ite h (Kept.ite (h.same rfl) (Kept.ite (h.same rfl) (meshExhausted_kept (h.same rfl))))

/-! ### Sys2Proof/Machine/RegFile.lean -/

theorem updRegs_kept {f} (h : Kept s t) : Kept s (updRegs f t) := h.same rfl
theorem ignoreWrite_kept (h : Kept s t) : Kept s (ignoreWrite t) := h.same rfl
theorem dropAddresses_kept (h : Kept s t) : Kept s (dropAddresses t) := h.same rfl

theorem settingStored_kept {off} (h : Kept s t) : Kept s (settingStored off t) :=
  Kept.ite (Kept.ite h (applyCaps_kept h)) (Kept.ite (dropAddresses_kept h) (Kept.ite (beginInterval_kept h) h))

theorem writeSetting_kept {off width mask lo bs} (h : Kept s t) : Kept s (writeSetting off width mask lo bs t) :=
  Kept.ite h (Kept.ite (ignoreWrite_kept h) (settingStored_kept (updRegs_kept h)))

theorem writeEnable_kept {fn on} (h : Kept s t) : Kept s (writeEnable fn on t) :=
  Kept.ite h (Kept.ite (Kept.ite (updFn_kept h) (ignoreWrite_kept h)) (Kept.ite (readDoorbells_kept (updFn_kept h))
    (updFn_kept h)))

theorem writeRingReg_kept {fn reg lo bs} (h : Kept s t) : Kept s (writeRingReg fn reg lo bs t) :=
  Kept.ite (ignoreWrite_kept h) (Kept.ite (Kept.ite (writeEnable_kept h) h) (Kept.ite (ignoreWrite_kept h) (Kept.ite
    (updFn_kept h) (updFn_kept h))))

theorem writeLock_kept {lo bs} (h : Kept s t) : Kept s (writeLock lo bs t) := Kept.ite (updRegs_kept h) h
theorem ignoreDbg_kept (h : Kept s t) : Kept s (ignoreDbg t) := h.same rfl

theorem forceLeave_kept (h : Kept s t) : Kept s (forceLeave t) :=
  Kept.ite (leaveHerd_kept (slipPrompts_kept (stopAll_kept (requestAll_kept h)))) h

theorem takeHold_kept {x} (h : Kept s t) : Kept s (takeHold x t) :=
  Kept.same (updRegs_kept (Kept.foldl (Kept.ite h (forceLeave_kept h)) (fun _ _ h1 => Kept.ite
    (resetDomain_kept h1) h1))) rfl

theorem writeDbg_kept {lo bs} (h : Kept s t) : Kept s (writeDbg lo bs t) :=
  Kept.ite h (Kept.ite (takeHold_kept h) (ignoreDbg_kept h))

theorem writeMsix_kept {fn slot lo bs} (h : Kept s t) : Kept s (writeMsix fn slot lo bs t) :=
  Kept.ite (updFn_kept h) (Kept.ite (unmaskVector_kept (updFn_kept (updFn_kept h))) (updFn_kept h))

theorem slotWrite_kept {fn slot lo bs} (h : Kept s t) : Kept s (slotWrite fn slot lo bs t) := by
  unfold slotWrite
  dsimp only
  split
  · exact Kept.ite (readDoorbells_kept h) h
  · split
    · exact Kept.ite (writeMsix_kept h) h
    · split
      · exact Kept.ite (writeRingReg_kept h) (ignoreWrite_kept h)
      · split
        · exact h
        · split
          · exact Kept.ite (writeLock_kept h) (ignoreWrite_kept h)
          · split
            · exact Kept.ite (writeDbg_kept h) (ignoreDbg_kept h)
            · split
              · exact Kept.ite (writeSetting_kept h) (ignoreWrite_kept h)
              · exact Kept.ite (ignoreWrite_kept h) h

theorem writeTlp_kept {fn fuel a bs} (h : Kept s t) : Kept s (writeTlp fn fuel a bs t) := by
  induction fuel generalizing a bs t with
  | zero => exact h
  | succ n ih =>
    unfold writeTlp
    split
    · exact h
    · exact ih (slotWrite_kept h)

theorem barWrite_kept {fn off bs} (h : Kept s t) : Kept s (barWrite fn off bs t) := Kept.ite (writeTlp_kept h) h

theorem execRegisterWrite_kept {fn offset data} (h : Kept s t) : KeptOut s (execRegisterWrite fn offset data t) :=
  barWrite_kept h

theorem execRingCtrl_kept {fn data stores} (h : Kept s t) : KeptOut s (execRingCtrl fn data stores t) :=
  barWrite_kept (hostStores_kept h)

theorem execSecLock_kept {value} (h : Kept s t) : KeptOut s (execSecLock value t) := barWrite_kept h
theorem execDbgReset_kept {data} (h : Kept s t) : KeptOut s (execDbgReset data t) := barWrite_kept h
theorem execMgtCtrl_kept {data} (h : Kept s t) : KeptOut s (execMgtCtrl data t) := barWrite_kept h

/-! ### Sys2Proof/Machine/Telemetry.lean -/

theorem deliver_kept {c bs} (h : Kept s t) : Kept s (deliver c bs t) := by
  unfold deliver
  dsimp only
  split
  · exact hostWrite_kept h
  · exact h.same rfl

theorem serveTelemetry_kept {coarse c} (h : Kept s t) : Kept s (serveTelemetry coarse c t) :=
  Kept.ite (finish_kept (h.same rfl)) (Kept.ite (finish_kept (h.same rfl)) (finish_kept (deliver_kept (h.same rfl))))

theorem execTelemetryRead_kept {src} (h : Kept s t) : KeptOut s (execTelemetryRead src t) :=
  runCmd_kept h (fun _ _ h1 => serveTelemetry_kept h1) (fun _ _ h1 => noAgain_kept h1)

theorem execTelemetryCoarse_kept {src} (h : Kept s t) : KeptOut s (execTelemetryCoarse src t) :=
  runCmd_kept h (fun _ _ h1 => serveTelemetry_kept h1) (fun _ _ h1 => noAgain_kept h1)

theorem execAttestQuote_kept {src} (h : Kept s t) : KeptOut s (execAttestQuote src t) :=
  runCmd_kept h (fun _ _ h1 => Kept.ite (updCmd_kept h1) (finishOk_kept (deliver_kept (h1.same rfl))))
    (fun _ _ h1 => noAgain_kept h1)

/-! ### Sys2Proof/Machine/BootCtl.lean -/

theorem execInputQualified_kept {volts10mV} (h : Kept s t) : KeptOut s (execInputQualified volts10mV t) := by
  unfold execInputQualified
  dsimp only
  split
  · exact trivial
  · exact Kept.ite (h.same rfl) h

theorem execRailsUp_kept (h : Kept s t) : KeptOut s (execRailsUp t) :=
  Kept.ite (Kept.same (Kept.toMode (m := .rom) (by decide) h) rfl) h

theorem execPerstN_kept {lowNs} (h : Kept s t) : KeptOut s (execPerstN lowNs t) := by
  unfold execPerstN
  split
  rename_i low w e
  have hw : Kept s w := by
    refine Kept.ofEq e ?_
    split
    · exact takeBool_kept h
    · exact h
  exact Kept.ite (resetAll_kept (hw.same rfl)) hw

theorem execPerstNRelease_kept (h : Kept s t) : KeptOut s (execPerstNRelease t) := Kept.ite (h.same rfl) h
theorem execModuleReset_kept {cause} (h : Kept s t) : KeptOut s (execModuleReset cause t) := resetAll_kept h

theorem execDomainRelease_kept (h : Kept s t) : KeptOut s (execDomainRelease t) :=
  Kept.ite h (faultEdge_kept (h.same rfl))

theorem enterHold_kept {code} (h : Kept s t) : Kept s (enterHold code t) := faultEdge_kept (h.same rfl)

theorem execRomChecks_kept {first second fuseOk digest} (h : Kept s t) :
    KeptOut s (execRomChecks first second fuseOk digest t) :=
  Kept.ite h (Kept.ite (enterHold_kept (Kept.ite (h.same rfl) h)) (Kept.ite (enterHold_kept (Kept.ite (h.same rfl) h))
    (beginTraining_kept (Kept.ite (h.same rfl) h))))

theorem fenceBad_kept {c} (h : Kept s t) : Kept s (fenceBad t c) := recordErr_kept (h.same rfl)

theorem failChannel_kept {ch} (h : Kept s t) : Kept s (failChannel t ch) :=
  Kept.foldl h (fun _ _ h1 => recordErr_kept (h1.same rfl))

theorem execTrainingComplete_kept {report} (h : Kept s t) : KeptOut s (execTrainingComplete report t) :=
  Kept.ite h (Kept.ite (enterHold_kept h) (breakSpan_kept (Kept.same (Kept.toMode (m := .trained) (by decide)
    (Kept.foldl (setLinks_kept (Kept.foldl (Kept.foldl (Kept.foldl h (fun _ _ h1 => fenceBad_kept h1))
    (fun _ _ h1 => failChannel_kept h1)) (fun _ _ h1 => updStack_kept h1))) (fun _ _ h1 => identify_kept h1))) rfl)))

theorem execThermalReset_kept (h : Kept s t) : KeptOut s (execThermalReset t) := Kept.ite (resetAll_kept h) h

theorem stopHostWork_kept {ctxs} (h : Kept s t) : Kept s (stopHostWork ctxs t) :=
  Kept.foldl h (fun _ _ h1 => Kept.ite (Kept.ite h1 (endPrompt_kept h1)) (Kept.ite (finish_kept h1) h1))

theorem flowStop_kept (h : Kept s t) : Kept s (flowStop t) := by
  unfold flowStop
  extract_lets pwr a hit b eng c mem d e
  have hb : Kept s b := by
    refine Kept.foldl (h.same rfl) fun _ _ h => ?_
    split
    · exact dropWork_kept h
    · exact dropWork_kept h
    · exact h
  have he : Kept s e := stopHostWork_kept (hb.same rfl)
  exact noteReasons_kept (Kept.foldl he fun _ _ h => settleProgram_kept h)

theorem execFlowFail_kept {heldNs} (h : Kept s t) : KeptOut s (execFlowFail heldNs t) :=
  Kept.ite h (Kept.ite (h.same rfl) (Kept.ite (Kept.ite (enterHold_kept (h.same rfl)) (h.same rfl)) (Kept.ite
    (h.same rfl) (flowStop_kept (h.same rfl)))))

theorem execFlowHoldEnd_kept (h : Kept s t) : KeptOut s (execFlowHoldEnd t) :=
  Kept.ite (beginTraining_kept (h.same rfl)) (h.same rfl)

theorem stopContexts_kept (h : Kept s t) : Kept s (stopContexts t) := Kept.foldl h (fun _ _ h1 => stopCtx_kept h1)

theorem enterRecovery_kept {order} (h : Kept s t) : Kept s (enterRecovery order t) :=
  finishOk_kept (Kept.same (Kept.toMode (m := .recovery) (by decide) (Kept.ite (leaveHerd_kept (Kept.foldl h
    (fun _ _ h1 => endContext_kept h1))) (breakSpan_kept (Kept.foldl h (fun _ _ h1 => endContext_kept h1))))) rfl)

theorem execRecoveryEnter_kept {src} (h : Kept s t) : KeptOut s (execRecoveryEnter src t) :=
  runCmd_kept h (fun _ _ h1 => Kept.ite (enterRecovery_kept (stopContexts_kept h1)) (stopContexts_kept h1))
    (fun _ _ h1 => Kept.ite (enterRecovery_kept (stopContexts_kept h1)) (stopContexts_kept h1))

theorem execRecoveryExit_kept {src} (h : Kept s t) : KeptOut s (execRecoveryExit src t) :=
  runCmd_kept h (fun _ _ h1 => finishOk_kept (breakSpan_kept (Kept.same (Kept.toMode (m := .trained)
    (by decide) h1) rfl))) (fun _ _ h1 => noAgain_kept h1)

theorem testLeave_kept {pattern seed f a} (h : Kept s t) : Kept s (testLeave pattern seed f a t) := by
  unfold testLeave
  dsimp only
  split
  · exact rawPut_kept h
  · split
    · exact rawPut_kept h
    · exact rawPut_kept h
    · exact h

theorem execMemTest_kept {src defects} (h : Kept s t) : KeptOut s (execMemTest src defects t) :=
  runCmd_kept h (fun _ _ h1 => finishOk_kept (hostWrite_kept (Kept.foldl (flushCache_kept h1)
    (fun _ _ h2 => testLeave_kept h2)))) (fun _ _ h1 => noAgain_kept h1)

/-! ### Sys2Proof/Machine/MgtPorts.lean -/

theorem updPort_kept {p f} (h : Kept s t) : Kept s (updPort p f t) := h.same rfl
theorem mgtReply_kept {p cmd result tag body} (h : Kept s t) : Kept s (mgtReply p cmd result tag body t) := h.same rfl

theorem mgtRow_kept {port cmd x k} (h : Kept s t) (hk : ∀ u, Kept s u → Kept s (k u)) :
    KeptOut s (mgtRow port cmd x k t) :=
  Kept.ite h (Kept.ite (mgtReply_kept h) (hk _ h))

theorem execDescriptor_kept {port head bytes} (h : Kept s t) : KeptOut s (execDescriptor port head bytes t) :=
  mgtRow_kept h (fun _ h1 => Kept.ite (mgtReply_kept h1) (acceptDesc_kept (updPort_kept h1)))

theorem execFetch_kept {port head offset length} (h : Kept s t) : KeptOut s (execFetch port head offset length t) :=
  mgtRow_kept h (fun _ h1 => Kept.ite (mgtReply_kept h1) (Kept.ite (mgtReply_kept h1) (mgtReply_kept h1)))

theorem execMgtState_kept {port head} (h : Kept s t) : KeptOut s (execMgtState port head t) :=
  mgtRow_kept h (fun _ h1 => mgtReply_kept h1)

theorem execMgtReset_kept {port head device} (h : Kept s t) : KeptOut s (execMgtReset port head device t) :=
  mgtRow_kept h (fun _ h1 => Kept.ite (mgtReply_kept h1) (Kept.ite (mgtReply_kept h1) (resetAll_kept
    (mgtReply_kept h1))))

theorem execDebugChallenge_kept {port head scope} (h : Kept s t) : KeptOut s (execDebugChallenge port head scope t) :=
  mgtRow_kept h (fun _ h1 => Kept.ite (mgtReply_kept h1) (Kept.ite (mgtReply_kept h1) (mgtReply_kept (h1.same rfl))))

theorem execDebugResponse_kept {port head body} (h : Kept s t) : KeptOut s (execDebugResponse port head body t) :=
  mgtRow_kept h (fun _ h1 => mgtReply_kept (h1.same rfl))

theorem execSetEndpointId_kept {port eid} (h : Kept s t) : KeptOut s (execSetEndpointId port eid t) :=
  Kept.ite h (Kept.ite (emit_kept h) (emit_kept (updPort_kept h)))

theorem execGetEndpointId_kept {port} (h : Kept s t) : KeptOut s (execGetEndpointId port t) :=
  Kept.ite (emit_kept h) h

theorem execGetEndpointUuid_kept {port} (h : Kept s t) : KeptOut s (execGetEndpointUuid port t) :=
  Kept.ite (emit_kept h) h

theorem execGetMctpVersionSupport_kept {port msgType} (h : Kept s t) :
    KeptOut s (execGetMctpVersionSupport port msgType t) :=
  Kept.ite h (Kept.ite (emit_kept h) (emit_kept h))

theorem execGetMessageTypeSupport_kept {port} (h : Kept s t) : KeptOut s (execGetMessageTypeSupport port t) :=
  Kept.ite (emit_kept h) h

theorem execDynamicAddressAssignment_kept {port addr} (h : Kept s t) :
    KeptOut s (execDynamicAddressAssignment port addr t) :=
  Kept.ite (updPort_kept h) h

theorem execIdeKm_kept {stream isLink key} (h : Kept s t) : KeptOut s (execIdeKm stream isLink key t) :=
  Kept.ite h (Kept.ite (readAllDoorbells_kept (releaseHeld_kept (h.same rfl))) (releaseHeld_kept (h.same rfl)))

theorem execIdeIntegrityFailure_kept {stream} (h : Kept s t) : KeptOut s (execIdeIntegrityFailure stream t) :=
  Kept.ite (emit_kept (h.same rfl)) h

theorem cfgWrite_kept {fn offset value} (h : Kept s t) : Kept s (cfgWrite fn offset value t) :=
  Kept.ite (h.same rfl) (Kept.ite (h.same rfl) h)

theorem execConfigurationRequest_kept {fn write offset value} (h : Kept s t) :
    KeptOut s (execConfigurationRequest fn write offset value t) := by
  unfold execConfigurationRequest
  split
  · exact h
  · split
    · exact emit_kept h
    · split
      · exact cfgWrite_kept h
      · dsimp only
        split
        · exact emit_kept h
        · exact emit_kept (takeNat_kept h)

/-! ### Dispatch and step -/

/-- The rows but INPUT_LOCKOUT keep `Kept`: one arm of the dispatch each. -/
theorem exec_kept {c} (hc : ∀ v, c ≠ .inputLockout v) (h : Kept s t) : KeptOut s (exec c t) := by
  cases c with
  | ctxCreate => exact execCtxCreate_kept h
  | ctxDestroy => exact execCtxDestroy_kept h
  | regionMap => exact execRegionMap_kept h
  | regionUnmap => exact execRegionUnmap_kept h
  | weightLoad => exact execWeightLoad_kept h
  | weightReplace => exact execWeightReplace_kept h
  | programLoad => exact execProgramLoad_kept h
  | programStart => exact execProgramStart_kept h
  | programStop => exact execProgramStop_kept h
  | streamOpen => exact execStreamOpen_kept h
  | streamClose => exact execStreamClose_kept h
  | promptSubmit => exact execPromptSubmit_kept h
  | batchSet => exact execBatchSet_kept h
  | streamAbort => exact execStreamAbort_kept h
  | kvSpillPolicy => exact execKvSpillPolicy_kept h
  | expertResidency => exact execExpertResidency_kept h
  | herdJoin => exact execHerdJoin_kept h
  | herdLeave => exact execHerdLeave_kept h
  | framePolicy => exact execFramePolicy_kept h
  | telemetryRead => exact execTelemetryRead_kept h
  | attestQuote => exact execAttestQuote_kept h
  | recoveryEnter => exact execRecoveryEnter_kept h
  | recoveryExit => exact execRecoveryExit_kept h
  | memTest => exact execMemTest_kept h
  | powerSet => exact execPowerSet_kept h
  | fence => exact execFence_kept h
  | resume => exact execResume_kept h
  | descriptorIntake => exact execDescriptorIntake_kept h
  | completionRecord => exact execCompletionRecord_kept h
  | doorbellRead => exact execDoorbellRead_kept h
  | doorbellPoll => exact execDoorbellPoll_kept h
  | ringNudge => exact execRingNudge_kept h
  | ringCtrl => exact execRingCtrl_kept h
  | resetWalk => exact execResetWalk_kept h
  | msixModerationTimer => exact execMsixModerationTimer_kept h
  | msixUnmask => exact execMsixUnmask_kept h
  | functionLevelReset => exact execFunctionLevelReset_kept h
  | vfEnable => exact execVfEnable_kept h
  | nop => exact execNop_kept h
  | endList => exact execEndList_kept h
  | frameLoop => exact execFrameLoop_kept h
  | commandStart => exact execCommandStart_kept h
  | taskIssue => exact execTaskIssue_kept h
  | commandRetire => exact execCommandRetire_kept h
  | fillGroupWrite => exact execFillGroupWrite_kept h
  | tileRun => exact execTileRun_kept h
  | tend => exact execTend_kept h
  | load => exact execLoad_kept h
  | store => exact execStore_kept h
  | vop => exact execVop_kept h
  | mma => exact execMma_kept h
  | taskRepeat => exact execTaskRepeat_kept h
  | stepPrep => exact execStepPrep_kept h
  | sample => exact execSample_kept h
  | routeSelect => exact execRouteSelect_kept h
  | routePlan => exact execRoutePlan_kept h
  | routeScatter => exact execRouteScatter_kept h
  | routeGather => exact execRouteGather_kept h
  | routeCombine => exact execRouteCombine_kept h
  | copy => exact execCopy_kept h
  | replicate => exact execReplicate_kept h
  | schedule => exact execSchedule_kept h
  | kvPoolInit => exact execKvPoolInit_kept h
  | kvAppend => exact execKvAppend_kept h
  | kvGather => exact execKvGather_kept h
  | kvSpill => exact execKvSpill_kept h
  | kvSpillDone => exact execKvSpillDone_kept h
  | kvReturnDone => exact execKvReturnDone_kept h
  | scheduleIssue => exact execScheduleIssue_kept h
  | scheduleTransferDone => exact execScheduleTransferDone_kept h
  | get => exact execGet_kept h
  | put => exact execPut_kept h
  | atomic => exact execAtomic_kept h
  | send => exact execSend_kept h
  | mbox => exact execMbox_kept h
  | exchange => exact execExchange_kept h
  | routeExchange => exact execRouteExchange_kept h
  | loadReq => exact execLoadReq_kept h
  | loadResp => exact execLoadResp_kept h
  | storePacket => exact execStorePacket_kept h
  | storeAck => exact execStoreAck_kept h
  | atomicPacket => exact execAtomicPacket_kept h
  | atomicResp => exact execAtomicResp_kept h
  | msg => exact execMsg_kept h
  | msgAck => exact execMsgAck_kept h
  | ready => exact execReady_kept h
  | block => exact execBlock_kept h
  | blockEnd => exact execBlockEnd_kept h
  | blockAck => exact execBlockAck_kept h
  | inv => exact execInv_kept h
  | invAck => exact execInvAck_kept h
  | retxTimeout => exact execRetxTimeout_kept h
  | syncInterval => exact execSyncInterval_kept h
  | sync => exact execSync_kept h
  | delayReq => exact execDelayReq_kept h
  | delayResp => exact execDelayResp_kept h
  | slipReq => exact execSlipReq_kept h
  | slip => exact execSlip_kept h
  | takeover => exact execTakeover_kept h
  | frameChange => exact execFrameChange_kept h
  | join => exact execJoin_kept h
  | joinAck => exact execJoinAck_kept h
  | joinResend => exact execJoinResend_kept h
  | herdJoinTimeout => exact execHerdJoinTimeout_kept h
  | herdForm => exact execHerdForm_kept h
  | guardPoint => exact execGuardPoint_kept h
  | fallbackCheck => exact execFallbackCheck_kept h
  | guardWindowOpen => exact execGuardWindowOpen_kept h
  | backupBroadcast => exact execBackupBroadcast_kept h
  | masterLost => exact execMasterLost_kept h
  | holdoverExpiry => exact execHoldoverExpiry_kept h
  | tick => exact execTick_kept h
  | reloadDone => exact execReloadDone_kept h
  | replaceRewriteDone => exact execReplaceRewriteDone_kept h
  | chainOffer => exact execChainOffer_kept h
  | chainReady => exact execChainReady_kept h
  | pieceNotice => exact execPieceNotice_kept h
  | peerSourceTimeout => exact execPeerSourceTimeout_kept h
  | refresh => exact execRefresh_kept h
  | stackTempReading => exact execStackTempReading_kept h
  | stackThrottleFall => exact execStackThrottleFall_kept h
  | storeScrub => exact execStoreScrub_kept h
  | meshFlitReceive => exact execMeshFlitReceive_kept h
  | flitReceive => exact execFlitReceive_kept h
  | nak => exact execNak_kept h
  | replayTimeout => exact execReplayTimeout_kept h
  | laneLockLoss => exact execLaneLockLoss_kept h
  | degradeMessage => exact execDegradeMessage_kept h
  | retrainComplete => exact execRetrainComplete_kept h
  | linkDown => exact execLinkDown_kept h
  | linkRetrainAttempt => exact execLinkRetrainAttempt_kept h
  | identityBlock => exact execIdentityBlock_kept h
  | controlInterval => exact execControlInterval_kept h
  | brakeN => exact execBrakeN_kept h
  | inputUv => exact execInputUv_kept h
  | inputUvClear => exact execInputUvClear_kept h
  | inputLockout v => exact absurd rfl (hc v)
  | inputQualified => exact execInputQualified_kept h
  | vrAlert => exact execVrAlert_kept h
  | vrAlertClear => exact execVrAlertClear_kept h
  | dieTempReading => exact execDieTempReading_kept h
  | dieFloorStep => exact execDieFloorStep_kept h
  | thermalReset => exact execThermalReset_kept h
  | flowFail => exact execFlowFail_kept h
  | flowHoldEnd => exact execFlowHoldEnd_kept h
  | perstN => exact execPerstN_kept h
  | moduleReset => exact execModuleReset_kept h
  | domainRelease => exact execDomainRelease_kept h
  | romChecks => exact execRomChecks_kept h
  | trainingComplete => exact execTrainingComplete_kept h
  | descriptor => exact execDescriptor_kept h
  | fetch => exact execFetch_kept h
  | mgtState => exact execMgtState_kept h
  | mgtReset => exact execMgtReset_kept h
  | debugChallenge => exact execDebugChallenge_kept h
  | debugResponse => exact execDebugResponse_kept h
  | setEndpointId => exact execSetEndpointId_kept h
  | getEndpointId => exact execGetEndpointId_kept h
  | getEndpointUuid => exact execGetEndpointUuid_kept h
  | getMctpVersionSupport => exact execGetMctpVersionSupport_kept h
  | getMessageTypeSupport => exact execGetMessageTypeSupport_kept h
  | dynamicAddressAssignment => exact execDynamicAddressAssignment_kept h
  | ideKm => exact execIdeKm_kept h
  | ideIntegrityFailure => exact execIdeIntegrityFailure_kept h
  | secLock => exact execSecLock_kept h
  | dbgReset => exact execDbgReset_kept h
  | mgtCtrl => exact execMgtCtrl_kept h
  | registerWrite => exact execRegisterWrite_kept h
  | perstNRelease => exact execPerstNRelease_kept h
  | railsUp => exact execRailsUp_kept h
  | cableSupplyOverload => exact execCableSupplyOverload_kept h
  | cableSupplyRetry => exact execCableSupplyRetry_kept h
  | telemetryCoarse => exact execTelemetryCoarse_kept h
  | dropNotice => exact execDropNotice_kept h
  | chainOfferReceive => exact execChainOfferReceive_kept h
  | kvHandover => exact execKvHandover_kept h
  | configurationRequest => exact execConfigurationRequest_kept h

theorem powerOff_kept (h : Kept s t) : Kept { s with boot := { s.boot with mode := .off } } (powerOff t) :=
  ⟨fun k => ⟨(h.mem k).1, ⟨rfl, rfl⟩, rfl, rfl⟩, h.fuse, h.pending, fun _ => rfl⟩

/-- INPUT_LOCKOUT keeps what the other rows keep, but for the mode, which it may set to OFF. -/
theorem execInputLockout_kept {v} (h : Kept s t) :
    KeptOut { s with boot := { s.boot with mode := .off } } (execInputLockout v t) := by
  unfold execInputLockout
  split
  · trivial
  · exact Kept.ite (faultEdge_kept (powerOff_kept h)) ⟨h.mem, h.fuse, h.pending, fun _ => rfl⟩

/-- What one step keeps: memory canonical, the fuses, the queue but its front, and the mode unless the front is
INPUT_LOCKOUT. -/
theorem step_kept (e : step s = .next t) :
    Kept { s with pending := s.pending.tail } t ∨
      ∃ v, s.pending.head? = some (.inputLockout v) ∧
        Kept { s with pending := s.pending.tail, boot := { s.boot with mode := .off } } t := by
  unfold step at e
  split at e
  · rename_i c rest hp
    simp only [hp, List.tail_cons, List.head?_cons]
    by_cases hc : ∀ v, c ≠ .inputLockout v
    · have hk := exec_kept hc (Kept.refl (s := { s with pending := rest }))
      rw [e] at hk
      exact .inl hk
    · obtain ⟨v, rfl⟩ := not_forall_not.mp hc
      have hk := execInputLockout_kept (v := v) (Kept.refl (s := { s with pending := rest }))
      have e' : execInputLockout v { s with pending := rest } = .next t := e
      rw [e'] at hk
      exact .inr ⟨v, rfl, hk⟩
  · rename_i hp
    cases e
    exact .inl (idleCycle_kept ⟨id, rfl, by rw [hp]; rfl, id⟩)

end Sys2Proof.Machine
end

section
open Sys2Proof.Machine

/-- Settles O59: every row keeps the three byte memories canonical, as every write goes through `cellsSet`. -/
theorem stepKeepsMemory : Obligations.StepKeepsMemory := by
  unfold Obligations.StepKeepsMemory
  intro s t hs e
  rcases step_kept e with hk | ⟨v, _, hk⟩
  · exact hk.mem hs
  · exact hk.mem hs

/-- Settles O60: no row writes the fuses or the queue, and only INPUT_LOCKOUT writes the mode OFF. -/
theorem offOnlyByLockout : Obligations.OffOnlyByLockout := by
  unfold Obligations.OffOnlyByLockout
  intro s t e
  rcases step_kept e with hk | ⟨v, hv, hk⟩
  · exact ⟨hk.fuse, hk.pending, fun hm => .inl (hk.off hm)⟩
  · exact ⟨hk.fuse, hk.pending, fun _ => .inr ⟨v, hv⟩⟩
end

section
/-! PROOFS. The packet rows and the doorbell blocks: O44, O12, O14. -/
namespace Sys2Proof.Machine

/-- A packet that is malformed, of another OP or for another module reaches no row's own work (R385). -/
theorem takePacket_discards {p : Packet} {op : Nat} (k : State → State) {s : State}
    (h : packetClean p = false ∨ p.op ≠ op ∨ p.dstDev ≠ devOf s) :
    takePacket p op k s = .next (tcount 45 p.srcDev 1 s) := by
  unfold takePacket
  rw [if_pos]
  rcases h with h | h | h
  · simp [h]
  · simp [h]
  · simp [h]

end Sys2Proof.Machine
end

section
open Sys2Proof.Machine

/-- Settles O44: each of the 14 rows is `takePacket` of its OP. -/
theorem packetDiscarded : Obligations.PacketDiscarded := by
  unfold Obligations.PacketDiscarded
  intro s p i op hrow h
  simp only [List.mem_cons, Prod.mk.injEq, List.not_mem_nil, or_false] at hrow
  rcases hrow with ⟨rfl, rfl⟩ | ⟨rfl, rfl⟩ | ⟨rfl, rfl⟩ | ⟨rfl, rfl⟩ | ⟨rfl, rfl⟩ | ⟨rfl, rfl⟩ | ⟨rfl, rfl⟩ |
    ⟨rfl, rfl⟩ | ⟨rfl, rfl⟩ | ⟨rfl, rfl⟩ | ⟨rfl, rfl⟩ | ⟨rfl, rfl⟩ | ⟨rfl, rfl⟩ | ⟨rfl, rfl⟩ <;>
  simp only [exec, execLoadReq, execLoadResp, execStorePacket, execStoreAck, execAtomicPacket, execAtomicResp, execMsg,
    execMsgAck, execReady, execBlock, execBlockEnd, execBlockAck, execInv, execInvAck, takePacket_discards _ h]
end

section
/-! PROOFS. A doorbell record that can be read: ignored, held while draining, or taken (O12). -/
namespace Sys2Proof.Machine

variable {s : State} {fn n : Nat} {r : Ring}

/-- The doorbell record of ring `n` is read: the ring does not wait for its repeated check and the host gives it. -/
structure BellRead (s : State) (fn n : Nat) : Prop where
  notWaiting : (fnOf s fn).walkFailed.contains n = false
  given : hostUnread s ((fnOf s fn).dbBase + 8 * n) 8 = false

theorem BellRead.not_skipped (h : BellRead s fn n) :
    ¬ ((fnOf s fn).walkFailed.contains n = true ∨ hostUnread s ((fnOf s fn).dbBase + 8 * n) 8 = true) := by
  rw [h.notWaiting, h.given]
  simp

theorem takeBell_reserved (h : BellRead s fn n) (hc : bellClean (doorbell s fn n) = false) :
    takeBell fn n s = ignoreBell fn n (doorbell s fn n) s := by
  unfold takeBell
  rw [if_neg h.not_skipped, if_pos (by simp [hc])]

theorem takeBell_draining (h : BellRead s fn n) (hc : bellClean (doorbell s fn n) = true)
    (ho : bellOpen (doorbell s fn n) = true) (hr : ringAt s fn n = some r) (hp : r.phase = 2) :
    takeBell fn n s = s := by
  unfold ringAt at hr
  unfold takeBell
  rw [if_neg h.not_skipped, if_neg (by simp [hc])]
  simp only [hr]
  rw [if_pos ⟨hp, ho⟩]

theorem takeBell_unfit (h : BellRead s fn n) (hc : bellClean (doorbell s fn n) = true) (hr : ringAt s fn n = some r)
    (hd : ¬ (r.phase = 2 ∧ bellOpen (doorbell s fn n) = true)) (hf : bellFits r (bellIndex (doorbell s fn n)) = false) :
    takeBell fn n s = ignoreBell fn n (doorbell s fn n) s := by
  unfold ringAt at hr
  unfold takeBell
  rw [if_neg h.not_skipped, if_neg (by simp [hc])]
  simp only [hr]
  rw [if_neg hd, if_pos (by simp [hf])]

/-- An index that fits, of an open SUBMIT ring whose record keeps OPEN: the producer index, and no ignored value left. -/
theorem takeBell_submit (h : BellRead s fn n) (hc : bellClean (doorbell s fn n) = true)
    (ho : bellOpen (doorbell s fn n) = true) (hr : ringAt s fn n = some r) (ht : r.type = 1) (hp : r.phase = 1)
    (hf : bellFits r (bellIndex (doorbell s fn n)) = true) :
    takeBell fn n s = updRing fn n (fun x => { x with
        hostIndex := bellIndex (doorbell s fn n), reopen := reopens s fn n (doorbell s fn n) r })
      (clearRefusal fn n (doorbell s fn n) s) := by
  unfold ringAt at hr
  unfold takeBell
  rw [if_neg h.not_skipped, if_neg (by simp [hc])]
  simp only [hr]
  rw [if_neg (by omega), if_neg (by simp [hf]), if_neg (by simp [ho]), if_neg (by omega)]

theorem ringAt_clearRefusal {v g m : Nat} (h : fn < s.fns.length) : ringAt (clearRefusal fn n v s) g m = ringAt s g m := by
  unfold ringAt clearRefusal
  by_cases hg : g = fn
  · subst hg
    rw [fnOf_updFn_same h]
  · rw [fnOf_updFn_other hg]

theorem ignored_clearRefusal {v : Nat} (h : fn < s.fns.length) :
    tabGet (fnOf (clearRefusal fn n v s) fn).ignored n = none := by
  unfold clearRefusal
  rw [fnOf_updFn_same h]
  exact tabGet_tabDel_same ..

theorem ignored_updRing {g : Ring → Ring} (h : fn < s.fns.length) :
    (fnOf (updRing fn n g s) fn).ignored = (fnOf s fn).ignored := by
  unfold updRing
  rw [fnOf_updFn_same h]

end Sys2Proof.Machine
end

section
open Sys2Proof.Machine

/-- Settles O12: the record is ignored, held or taken by the branch of `takeBell` it reaches. -/
theorem doorbellRecord : Obligations.DoorbellRecord := by
  unfold Obligations.DoorbellRecord
  rintro s fn n v hfn rfl hw hu
  have hb : BellRead s fn n := ⟨hw, hu⟩
  refine ⟨fun hbad => ?_, fun r hc ho hr hp => takeBell_draining hb hc ho hr hp, fun r hc ho hr ht hp hd => ?_⟩
  · have hi : takeBell fn n s = ignoreBell fn n (doorbell s fn n) s := by
      cases hc : bellClean (doorbell s fn n) with
      | false => exact takeBell_reserved hb hc
      | true =>
        obtain hc' | ⟨r, hr, hd, hf⟩ := hbad
        · rw [hc] at hc'
          cases hc'
        · exact takeBell_unfit hb hc hr hd hf
    rw [hi, ignoreBell]
    exact ⟨fun h => if_pos h, fun h => if_neg h⟩
  · have hf : bellFits r (bellIndex (doorbell s fn n)) = true := by
      rw [bellFits, if_pos ht]
      exact decide_eq_true hd
    have hl : fn < (clearRefusal fn n (doorbell s fn n) s).fns.length := by
      rw [clearRefusal, updFn_length]
      exact hfn
    rw [takeBell_submit hb hc ho hr ht hp hf]
    refine ⟨?_, ?_, fun g m hgm => ?_⟩
    · rw [ringAt_updRing_same hl, ringAt_clearRefusal hfn, hr]
      rfl
    · rw [ignored_updRing hl, ignored_clearRefusal hfn]
    · rw [ringAt_updRing_other hgm, ringAt_clearRefusal hfn]
end

section
/-! PROOFS. One opening of a ring: what noting the entry as seen leaves, and each branch of `openRing` (O14). -/
namespace Sys2Proof.Machine

variable {s : State} {fn n : Nat}

/-! `noteSeen` writes the list of entries seen, and nothing an opening reads after it. -/

theorem fnOf_noteSeen (h : fn < s.fns.length) : fnOf (noteSeen fn n s) fn = { fnOf s fn with
    seen := if (fnOf s fn).seen.contains n then (fnOf s fn).seen else n :: (fnOf s fn).seen } :=
  fnOf_updFn_same h

theorem ringAt_noteSeen (h : fn < s.fns.length) (g m : Nat) : ringAt (noteSeen fn n s) g m = ringAt s g m := by
  by_cases hg : g = fn
  · rw [ringAt, hg, fnOf_noteSeen h, ringAt]
  · rw [ringAt, noteSeen, fnOf_updFn_other hg, ringAt]

theorem eventRing_noteSeen (h : fn < s.fns.length) :
    eventRing (fnOf (noteSeen fn n s) fn) = eventRing (fnOf s fn) := by
  rw [fnOf_noteSeen h, eventRing, eventRing]

theorem dirEntry_noteSeen (h : fn < s.fns.length) (m : Nat) : dirEntry (noteSeen fn n s) fn m = dirEntry s fn m := by
  rw [dirEntry, fnOf_noteSeen h]
  rfl

theorem statusLive_noteSeen (e : List Byte) : statusLive (noteSeen fn n s) e = statusLive s e := rfl

/-! The branches of an opening whose entry the host gives. -/

/-- The directory entry of ring `n` can be read. -/
structure EntryRead (s : State) (fn n : Nat) : Prop where
  exists_fn : fn < s.fns.length
  given : hostUnread s ((fnOf s fn).dirBase + 64 * n) 64 = false

section
variable {c : Ring} (h : EntryRead s fn n)
include h

theorem openRing_defective (he : entryReason (dirEntry s fn n) ≠ 0) :
    openRing fn n s = refuseRing fn n (entryReason (dirEntry s fn n)) (noteSeen fn n s) := by
  unfold openRing
  rw [if_neg (by simp [h.given]), if_pos he]

theorem openRing_unpaired (he : entryReason (dirEntry s fn n) = 0) (ht : fieldAt (dirEntry s fn n) 0 1 = 1)
    (hc : ∀ c, ringAt s fn (fieldAt (dirEntry s fn n) 2 2) = some c →
      c.type ≠ 2 ∨ c.phase ≠ 1 ∨ c.log2 ≠ fieldAt (dirEntry s fn n) 1 1 ∨ c.pair ≠ n) :
    openRing fn n s = refuseRing fn n 5 (noteSeen fn n s) := by
  unfold openRing
  rw [if_neg (by simp [h.given]), if_neg (by simp [he]), if_pos ht]
  simp only [ringAt_noteSeen h.exists_fn]
  split
  · rfl
  · rename_i c hr
    rw [if_pos (hc c hr)]

theorem openRing_submit (he : entryReason (dirEntry s fn n) = 0) (ht : fieldAt (dirEntry s fn n) 0 1 = 1)
    (hr : ringAt s fn (fieldAt (dirEntry s fn n) 2 2) = some c) (h2 : c.type = 2) (h1 : c.phase = 1)
    (hl : c.log2 = fieldAt (dirEntry s fn n) 1 1) (hp : c.pair = n) :
    openRing fn n s = if c.accepted ≠ bellIndex (doorbell s fn n) then refuseRing fn n 7 (noteSeen fn n s)
      else publish fn n (setRing fn n (entryRing (dirEntry s fn n) 1 (bellIndex (doorbell s fn n))) (noteSeen fn n s)) := by
  unfold openRing
  rw [if_neg (by simp [h.given]), if_neg (by simp [he]), if_pos ht]
  simp only [ringAt_noteSeen h.exists_fn, hr]
  rw [if_neg (by simp [h2, h1, hl, hp])]

theorem openRing_event (he : entryReason (dirEntry s fn n) = 0) (ht : fieldAt (dirEntry s fn n) 0 1 = 3) :
    openRing fn n s = if (eventRing (fnOf s fn)).isSome then refuseRing fn n 6 (noteSeen fn n s)
      else if firstRead s fn n && statusLive s (dirEntry s fn n) then
        resumeEvent fn n (dirEntry s fn n) (noteSeen fn n s)
      else publish fn n (setRing fn n (entryRing (dirEntry s fn n) 1 (bellIndex (doorbell s fn n))) (noteSeen fn n s)) := by
  unfold openRing
  rw [if_neg (by simp [h.given]), if_neg (by simp [he]), if_neg (by omega), if_pos ht,
    eventRing_noteSeen h.exists_fn, statusLive_noteSeen]

theorem openRing_complete (he : entryReason (dirEntry s fn n) = 0) (ht : fieldAt (dirEntry s fn n) 0 1 = 2) :
    openRing fn n s =
      if firstRead s fn n && fieldAt (dirEntry s fn (fieldAt (dirEntry s fn n) 2 2)) 0 1 == 1
          && entryReason (dirEntry s fn (fieldAt (dirEntry s fn n) 2 2)) == 0
          && statusLive s (dirEntry s fn (fieldAt (dirEntry s fn n) 2 2)) then
        updFn fn (fun f => { f with seen := f.seen.filter (fun x => decide (x ≠ n)) }) (noteSeen fn n s)
      else setRing fn n (entryRing (dirEntry s fn n) 1 (bellIndex (doorbell s fn n))) (noteSeen fn n s) := by
  unfold openRing
  rw [if_neg (by simp [h.given]), if_neg (by simp [he]), if_neg (by omega), if_neg (by omega),
    dirEntry_noteSeen h.exists_fn]
  rfl

end

theorem ringAt_setRing_same {x : Ring} (h : fn < s.fns.length) : ringAt (setRing fn n x s) fn n = some x := by
  rw [ringAt, setRing, fnOf_updFn_same h]
  exact tabGet_tabSet_same ..

theorem ringAt_setRing_other {x : Ring} {g m : Nat} (h : g ≠ fn ∨ m ≠ n) :
    ringAt (setRing fn n x s) g m = ringAt s g m := by
  unfold ringAt setRing
  by_cases hg : g = fn
  · by_cases hl : fn < s.fns.length
    · rw [hg, fnOf_updFn_same hl]
      exact tabGet_tabSet_other _ _ _ _ (h.resolve_left (not_not.mpr hg))
    · simp [fnOf, updFn, hg, hl]
  · rw [fnOf_updFn_other hg]

theorem ringAt_publish {g m : Nat} : ringAt (publish fn n s) g m = ringAt s g m := by
  rw [ringAt, ringAt, fnOf, fnOf, publish_fns]

end Sys2Proof.Machine
end

section
open Sys2Proof.Machine

/-- Settles O14: the branches of `openRing`, and `setRing` and `publish` beside every other ring. -/
theorem ringOpening : Obligations.RingOpening := by
  unfold Obligations.RingOpening
  rintro s fn n i e k w hfn rfl rfl rfl rfl hu
  have h : EntryRead s fn n := ⟨hfn, hu⟩
  have hw : fn < (noteSeen fn n s).fns.length := by
    rw [noteSeen, updFn_length]
    exact hfn
  refine ⟨openRing_defective h, openRing_unpaired h, fun he ht hs => ?_, fun c he ht hr h2 h1 hl hp => ?_,
    fun he ht hn => ?_, fun he ht => ?_, fun x => ⟨?_, fun g m hgm => ?_, fun g m => ringAt_publish⟩⟩
  · rw [openRing_event h he ht, if_pos hs]
  · rw [openRing_submit h he ht hr h2 h1 hl hp]
    exact ⟨fun ha => if_pos ha, fun ha => if_neg (not_not.mpr ha)⟩
  · rw [openRing_event h he ht, hn]
    exact ⟨fun hf hl => by simp [hf, hl], fun hf => by rcases hf with hf | hf <;> simp [hf]⟩
  · rw [openRing_complete h he ht]
    refine ⟨fun hf ht hk hl => by simp [hf, ht, hk, hl], fun hf => ?_⟩
    rcases hf with hf | hf | hf | hf <;> simp [hf]
  · exact ringAt_setRing_same hw
  · rw [ringAt_setRing_other hgm, ringAt_noteSeen hfn]
end

section
/-! PROOFS. What a status record that reaches host memory holds, field by field (O13). -/
namespace Sys2Proof.Machine

variable {s : State} {fn n : Nat} {r : Ring}

/-- A part of the bytes just put, read back. -/
theorem hostBytes_hostPut_part {a i k : Nat} {bs : List Byte} (h : i + k ≤ bs.length) :
    hostBytes (hostPut a bs s) (a + i) k = (bs.drop i).take k := by
  refine List.ext_getElem (by simp [hostBytes, cellsGet]; omega) fun j hj _ => ?_
  have hjk : j < k := by simpa [hostBytes, cellsGet] using hj
  have hc := cellGet_cellsSet_same bs s.host.cells a (i + j) (by omega)
  simpa [hostBytes, cellsGet, hostPut, Nat.add_assoc] using hc

/-- ACCEPTED, COMPLETED, STATE and RESETS of a SUBMIT ring as its status record in host memory shows them (R70, R78). -/
theorem publish_submit_shows (hr : ringAt s fn n = some r) (ht : r.type = 1) (hi : insecureAt s r.status = false) :
    hostBytes (publish fn n s) r.status 4 = natLe 4 r.accepted ∧
    hostBytes (publish fn n s) (r.status + 4) 4 = natLe 4 r.completed ∧
    hostBytes (publish fn n s) (r.status + 8) 1 = natLe 1 r.phase ∧
    hostBytes (publish fn n s) (r.status + 12) 4 = natLe 4 r.resets := by
  have hp : publish fn n s =
      hostPut r.status (statusRecord r.accepted r.completed r.phase r.resets (stampOf s)) s := by
    unfold ringAt at hr
    rw [← hostWrite_sent _ hi, publish, hr]
    simp [ht]
  rw [hp]
  refine ⟨?_, ?_, ?_, ?_⟩
  · exact hostBytes_hostPut_part (i := 0) (by simp)
  · exact hostBytes_hostPut_part (by simp)
  · exact hostBytes_hostPut_part (by simp)
  · exact hostBytes_hostPut_part (by simp)

end Sys2Proof.Machine
end

section
open Sys2Proof.Machine

/-- Settles O13: the row's three branches, and the status record it publishes. -/
theorem intakeRow : Obligations.IntakeRow := by
  unfold Obligations.IntakeRow
  rintro s st w rfl
  simp only [exec, execDescriptorIntake]
  refine ⟨fun hp => by simp [hp], fun hp hn => by simp [hp, hn], ?_⟩
  rintro fn n k t hp hn rfl
  refine ⟨by simp [hp, hn], fun r hr ht hi => ⟨?_, publish_submit_shows hr ht hi⟩⟩
  rw [ringAt_publish, hr]
end

section
/-! PROOFS. A completion record in its slot (O15): what its signal, the status record and a ring that closes leave. -/
namespace Sys2Proof.Machine

variable {s : State} {fn n : Nat} {r : Ring}

/-! ### Other rings -/

/-- Only a function that exists has a ring in use. -/
theorem lt_of_ringAt (h : ringAt s fn n = some r) : fn < s.fns.length := by
  by_contra hn
  rw [ringAt, fnOf, List.getD_eq_default _ _ (by omega)] at h
  cases h

theorem ringAt_updFn_rings {g m f : Nat} {h : FnState → FnState} (hr : ∀ x, (h x).rings = x.rings) :
    ringAt (updFn f h s) g m = ringAt s g m := by
  unfold ringAt fnOf
  rw [List.getD_eq_getElem?_getD, List.getD_eq_getElem?_getD, fns_updFn]
  cases s.fns[g]? with
  | none => rfl
  | some x => by_cases hf : f = g <;> simp [hf, hr]

theorem ringAt_signalVector {g m v : Nat} : ringAt (signalVector fn v s) g m = ringAt s g m := by
  unfold signalVector
  split
  · exact ringAt_updFn_rings fun _ => rfl
  · split <;> rfl

theorem ringAt_signalRing_other {g m : Nat} (h : g ≠ fn ∨ m ≠ n) : ringAt (signalRing fn n s) g m = ringAt s g m := by
  unfold signalRing
  split
  · rw [ringAt_signalVector, ringAt_updRing_other h]
  · rfl

theorem ringAt_recordSignal_other {g m : Nat} (h : g ≠ fn ∨ m ≠ n) :
    ringAt (recordSignal fn n s) g m = ringAt s g m := by
  unfold recordSignal
  split
  · dsimp only
    split
    · rw [ringAt_signalRing_other h, ringAt_updRing_other h]
    · rw [ringAt_updRing_other h]
  · rfl

theorem ringAt_hostWrite {g m a : Nat} {bs : List Byte} : ringAt (hostWrite a bs s) g m = ringAt s g m := by
  simp [ringAt, fnOf]

theorem ringAt_writeCompletion_other {cn index tag st op d res tm g m : Nat} (h : g ≠ fn ∨ m ≠ cn) :
    ringAt (writeCompletion fn cn index tag st op d res tm s) g m = ringAt s g m := by
  unfold writeCompletion
  split
  · rfl
  · rw [ringAt_recordSignal_other h, ringAt_updRing_other h, ringAt_hostWrite]

theorem writeCompletion_cmds {cn index tag st op d res tm : Nat} :
    (writeCompletion fn cn index tag st op d res tm s).cmds = s.cmds := by
  unfold writeCompletion
  split
  · rfl
  · simp

/-! ### Host memory beside the status record -/

theorem hostBytes_publish_other {a k : Nat} (hr : ringAt s fn n = some r) (h : a + k ≤ r.status ∨ r.status + 64 ≤ a) :
    hostBytes (publish fn n s) a k = hostBytes s a k := by
  unfold ringAt at hr
  rw [publish, hr]
  dsimp only
  split
  · rfl
  · rw [hostBytes_hostWrite_other (by rw [statusRecord_length]; omega)]

theorem ringAt_updRing_some (hr : ringAt s fn n = some r) (g : Ring → Ring) :
    ringAt (updRing fn n g s) fn n = some (g r) := by
  rw [ringAt_updRing_same (lt_of_ringAt hr), hr]
  rfl

theorem hostBytes_closeSubmit_other {a k : Nat} (hr : ringAt s fn n = some r)
    (h : a + k ≤ r.status ∨ r.status + 64 ≤ a) : hostBytes (closeSubmit fn n s) a k = hostBytes s a k := by
  have hp : hostBytes (publish fn n (updRing fn n (fun x => { x with phase := 0 }) s)) a k = hostBytes s a k :=
    hostBytes_publish_other (ringAt_updRing_some hr _) h
  rw [← hp, closeSubmit, hr]
  dsimp only
  split
  · split <;> rfl
  · rfl

theorem closeSubmit_cmds : (closeSubmit fn n s).cmds = s.cmds := by
  unfold closeSubmit
  split
  · rfl
  · dsimp only
    split
    · split <;> simp [dropRing]
    · simp [dropRing]

theorem hostBytes_settleRing_other {a k : Nat} (hr : ringAt s fn n = some r)
    (h : a + k ≤ r.status ∨ r.status + 64 ≤ a) : hostBytes (settleRing fn n s) a k = hostBytes s a k := by
  rw [settleRing, hr]
  dsimp only
  split
  · exact hostBytes_closeSubmit_other hr h
  · rfl

theorem settleRing_cmds : (settleRing fn n s).cmds = s.cmds := by
  unfold settleRing
  split
  · split
    · exact closeSubmit_cmds
    · rfl
  · rfl

theorem settleRing_of_pending (hr : ringAt s fn n = some r) (h : r.completed ≠ r.accepted) : settleRing fn n s = s := by
  rw [settleRing, hr]
  exact if_neg fun hc => h hc.2.2

/-! ### The record of a SUBMIT ring's oldest command -/

theorem putRecord_of_open {c : FleosCmd} (hr : ringAt s fn n = some r) (hc : cmdOf s (.ring fn n r.completed) = some c)
    (ho : c.isOpen = true) : putRecord fn n s = s := by
  rw [putRecord, hr]
  simp only [hc]
  unfold FleosCmd.isOpen at ho
  split
  · rename_i hd
    rw [hd] at ho
    cases ho
  · rfl

/-- The state whose ring's record has been written, before its status record is. -/
def recorded (fn : Nat) (r : Ring) (c : FleosCmd) (st d res : Nat) (s : State) : State :=
  let w := writeCompletion fn r.pair r.completed (fieldAt c.desc 4 4) st c.opcode d res c.time s
  { w with cmds := w.cmds.filter (fun x => decide (x.order ≠ c.order)) }

theorem putRecord_of_done {c : FleosCmd} {st d res : Nat} (hr : ringAt s fn n = some r) (ht : r.type = 1)
    (hc : cmdOf s (.ring fn n r.completed) = some c) (hd : c.phase = .done st d res) :
    putRecord fn n s = publish fn n (updRing fn n (fun x => { x with completed := (x.completed + 1) % 2 ^ 32 })
      (recorded fn r c st d res s)) := by
  rw [putRecord, hr]
  simp only [hc, hd]
  exact if_neg (not_not.mpr ht)

theorem ringAt_recorded {c : FleosCmd} {st d res : Nat} (hr : ringAt s fn n = some r) (hp : r.pair ≠ n) :
    ringAt (recorded fn r c st d res s) fn n = some r := by
  have hw := ringAt_writeCompletion_other (s := s) (fn := fn) (index := r.completed) (tag := fieldAt c.desc 4 4)
    (st := st) (op := c.opcode) (d := d) (res := res) (tm := c.time) (g := fn) (.inr hp.symm)
  exact hw.trans hr

/-- COMPLETION_RECORD leaves host memory beside the status record, and the commands, as the completion record left them. -/
theorem nextRecord_of_done {c : FleosCmd} {st d res a k : Nat} (hr : ringAt s fn n = some r) (ht : r.type = 1)
    (hp : r.pair ≠ n) (hc : cmdOf s (.ring fn n r.completed) = some c) (hd : c.phase = .done st d res)
    (ha : a + k ≤ r.status ∨ r.status + 64 ≤ a) :
    hostBytes (nextRecord fn n s) a k = hostBytes (recorded fn r c st d res s) a k ∧
      (nextRecord fn n s).cmds = (recorded fn r c st d res s).cmds := by
  have hu := ringAt_updRing_some (ringAt_recorded (c := c) (st := st) (d := d) (res := res) hr hp)
    (fun x => { x with completed := (x.completed + 1) % 2 ^ 32 })
  rw [nextRecord, putRecord_of_done hr ht hc hd]
  constructor
  · rw [hostBytes_settleRing_other (ringAt_publish.trans hu) ha, hostBytes_publish_other hu ha, hostBytes_updRing]
  · rw [settleRing_cmds, publish_cmds, updRing_cmds]

end Sys2Proof.Machine
end

section
open Sys2Proof.Machine

/-- Settles O15: `putRecord` waits for the oldest command; what follows it in the row does not reach the record. -/
theorem recordRow : Obligations.RecordRow := by
  unfold Obligations.RecordRow
  intro s fn n r k c hp hfn hr ht hn hk hc
  simp only [exec, execCompletionRecord, if_pos hp]
  refine ⟨fun ho hne => ?_, ?_⟩
  · rw [nextRecord, putRecord_of_open hr hc ho, settleRing_of_pending hr hne]
  · rintro st d res a hd rfl hi ha
    obtain ⟨hb, hcmds⟩ := nextRecord_of_done hr ht hn hc hd ha
    refine ⟨_, rfl, ?_, ?_⟩
    · rw [hb]
      exact hostBytes_writeCompletion _ _ _ _ _ _ hk hi
    · rw [hcmds, recorded]
      simp only [writeCompletion_cmds]
end

section
/-! PROOFS. The walks of a function, its reset, and VF_ENABLE that takes no function away (O17). -/
namespace Sys2Proof.Machine

variable {s : State} {fn : Nat}

/-- A reset leaves a function no ring, no refused record and no walk; a virtual function is disabled as well (R93). -/
theorem resetRings_clears {f : FnState} (h0 : fn ≠ 0) (hf : (resetRings fn s).fns[fn]? = some f) :
    f.rings = [] ∧ f.refused = [] ∧ f.walking = false ∧ f.enable = false := by
  unfold resetRings at hf
  rw [fns_updFn, Option.map_eq_some_iff] at hf
  obtain ⟨x, _, rfl⟩ := hf
  simp [h0]

/-- The reset of a function whose contexts have stopped ends with the reset of its rings. -/
theorem resetFunction_of_stopped (h0 : fn ≠ 0)
    (h : (flrContexts s fn).all (ctxStopped ((flrContexts s fn).foldl (fun s c => stopCtx c s) s)) = true) :
    ∃ u, (resetFunction fn s).2 = resetRings fn u := by
  unfold resetFunction
  dsimp only
  rw [if_neg (by simp [h]), if_neg h0]
  exact ⟨_, rfl⟩

/-- The virtual functions that VF_ENABLE takes away: those shown now above those it leaves (R498). -/
theorem goneVfs_nil {shown e : Bool} {now n : Nat} (h : shown = false ∨ (e = true ∧ now ≤ n)) :
    (List.range 17).filter (fun f => decide ((if e then n else 0) < f ∧ f ≤ (if shown then now else 0))) = [] := by
  refine List.filter_eq_nil_iff.mpr fun f _ => ?_
  simp only [decide_eq_true_eq, not_and, not_le]
  rcases h with rfl | ⟨rfl, h⟩
  · simp only [Bool.false_eq_true, if_false]
    omega
  · rw [if_pos rfl]
    split <;> omega

end Sys2Proof.Machine
end

section
open Sys2Proof.Machine

/-- Settles O17: a walk by the rings left, a reset by its last write, VF_ENABLE by the functions that go. -/
theorem resetRows : Obligations.ResetRows := by
  unfold Obligations.ResetRows
  refine ⟨fun s fn hp he => ?_, fun s fn hp hu h0 hs => ?_, fun s e n hn h => ?_⟩
  · simp only [exec, execResetWalk, hp, he, Bool.and_self, if_true, walkNext]
    exact ⟨fun h => by simp [h], fun n h => by simp [h], fun n m rest h => by simp [h]⟩
  · obtain ⟨u, hr⟩ := resetFunction_of_stopped h0 hs
    refine ⟨resetRings fn u, ?_, fun f hf => ?_⟩
    · simp only [exec, execFunctionLevelReset, hu, hp, Bool.and_self, if_true, hr]
    · exact resetRings_clears h0 hf
  · simp only [exec, execVfEnable, goneVfs_nil h, List.foldl_nil]
    simp [hn]
end

section
/-! PROOFS. Retirement (R100, R102, R110): the event counted, the units freed, the queue that waits again (O19). -/
namespace Sys2Proof.Machine

variable {s : State} {e : Engine} {q : Nat} {x : Queue} {c : Cmd}

/-- What every step of a fold leaves, the fold leaves. -/
theorem foldl_keeps {α β : Type} (π : State → β) {f : State → α → State} (h : ∀ s x, π (f s x) = π s) (l : List α)
    (s : State) : π (l.foldl f s) = π s := by
  induction l generalizing s with
  | nil => rfl
  | cons x l ih => exact (ih (f s x)).trans (h s x)

theorem settlePins_tally (s : State) : (settlePins s).tally = s.tally := by
  refine foldl_keeps State.tally (fun s c => ?_) s.cmds s
  split
  · split
    · split
      · simp
      · rfl
    · rfl
  · rfl

/-! ### The event and the tally -/

theorem dropWork_eng : (dropWork e q s).eng = s.eng := by
  cases e <;> rfl

theorem dropWork_tally : (dropWork e q s).tally = s.tally := by
  cases e <;> rfl

theorem signalRetired_queues : (signalRetired x c s).eng.queues = s.eng.queues := by
  unfold signalRetired
  split
  · rfl
  · split <;> rfl

theorem signalRetired_discarded : (signalRetired x c s).tally.discardedSignals =
    if c.signalFlag && x.late then s.tally.discardedSignals + 1 else s.tally.discardedSignals := by
  unfold signalRetired
  cases c.signalFlag <;> cases x.late <;> rfl

theorem signalRetired_event : tabNat (signalRetired x c s).eng.events c.signalEvent =
    if c.signalFlag && !x.late then (tabNat s.eng.events c.signalEvent + 1) % 2 ^ 32
    else tabNat s.eng.events c.signalEvent := by
  unfold signalRetired
  cases c.signalFlag <;> cases x.late
  case true.false => exact tabNat_tabPut_same ..
  all_goals rfl

theorem signalRetired_event_other {n : Nat} (h : n ≠ c.signalEvent) :
    tabNat (signalRetired x c s).eng.events n = tabNat s.eng.events n := by
  unfold signalRetired
  cases c.signalFlag <;> cases x.late
  case true.false => exact tabNat_tabPut_other _ _ _ _ h
  all_goals rfl

/-! ### The whole row -/

/-- The state before a copy that has landed settles the pins which wait for it: the queue set, its units free. -/
def retiredHere (e : Engine) (q : Nat) (x : Queue) (c : Cmd) (s : State) : State :=
  freeUnits e q (dropWork e q (setQueue e q (afterRetire x c) (signalRetired x c s)))

theorem retireHead_eng : (retireHead e q x c s).eng = (retiredHere e q x c s).eng := by
  unfold retireHead
  dsimp only
  split
  · rw [landCopy_eng, retiredHere]
  · rfl

theorem retireHead_tally : (retireHead e q x c s).tally = (signalRetired x c s).tally := by
  have h : (retiredHere e q x c s).tally = (signalRetired x c s).tally := by
    rw [retiredHere, freeUnits, dropWork_tally, setQueue]
  unfold retireHead
  dsimp only
  split
  · rw [landCopy, settlePins_tally]
    exact h
  · exact h

theorem retireHead_queues : (retireHead e q x c s).eng.queues = tabSet s.eng.queues (queueKey e q) (afterRetire x c) := by
  rw [retireHead_eng, retiredHere, freeUnits, dropWork_eng, setQueue, signalRetired_queues]

theorem retireHead_events : (retireHead e q x c s).eng.events = (signalRetired x c s).eng.events := by
  rw [retireHead_eng, retiredHere, freeUnits, dropWork_eng, setQueue]

theorem retireHead_held {h : Engine × Nat × Nat} (hh : h ∈ (retireHead e q x c s).eng.held) : ¬(h.1 = e ∧ h.2.2 = q) := by
  rw [retireHead_eng, retiredHere, freeUnits] at hh
  have hf := (List.mem_filter.mp hh).2
  rintro ⟨rfl, rfl⟩
  simp at hf

end Sys2Proof.Machine
end

section
open Sys2Proof.Machine

/-- Settles O19: each field of the state after `retireHead`. -/
theorem retiredQueue : Obligations.RetiredQueue := by
  unfold Obligations.RetiredQueue
  rintro s e q x c t rfl
  refine ⟨?_, rfl, rfl, fun h hh => retireHead_held hh, ?_, fun k hk => ?_, ?_, fun n hn => ?_⟩
  · rw [queueAt, retireHead_queues, tabGet_tabSet_same]
  · rw [retireHead_tally, signalRetired_discarded]
  · rw [retireHead_queues, tabGet_tabSet_other _ _ _ _ hk]
  · rw [retireHead_events, signalRetired_event]
  · rw [retireHead_events, signalRetired_event_other hn]
end

section
/-! PROOFS. The common checks of a Fleos command: every one of the 27 rows is `runCmd` of its opcode (O21). -/
namespace Sys2Proof.Machine

variable {s : State} {src : CmdSrc} {op : Nat} {c : FleosCmd} {f g : FleosCmd → State → State}

theorem runCmd_held (h1 : cmdOf s src = some c) (h2 : c.phase = .waiting)
    (h : heldBack s c = true ∨ hostWaits s c = true) : runCmd op src f g s = .next s := by
  simp only [runCmd, h1, h2]
  split
  · rfl
  · rw [if_pos]
    rcases h with h | h <;> simp [h]

theorem runCmd_done {st d r : Nat} (h1 : cmdOf s src = some c) (h2 : c.phase = .done st d r) :
    runCmd op src f g s = .next s := by
  simp [runCmd, h1, h2]

theorem exec_fleosRow {i : Instr} (h : fleosRow i = some (op, src)) : ∃ f g, exec i s = runCmd op src f g s := by
  unfold fleosRow at h
  split at h
  all_goals cases h
  all_goals simp only [exec, closeCmd, execCtxCreate, execCtxDestroy, execRegionMap, execRegionUnmap, execWeightLoad,
    execWeightReplace, execProgramLoad, execProgramStart, execProgramStop, execStreamOpen, execStreamClose,
    execPromptSubmit, execBatchSet, execStreamAbort, execKvSpillPolicy, execExpertResidency, execHerdJoin,
    execHerdLeave, execFramePolicy, execTelemetryRead, execAttestQuote, execRecoveryEnter, execRecoveryExit,
    execMemTest, execPowerSet, execFence, execResume]
  all_goals exact ⟨_, _, rfl⟩

end Sys2Proof.Machine
end

section
open Sys2Proof.Machine

/-- Settles O21: the row is `runCmd`, whose checks come before anything of the command's own. -/
theorem checksDecide : Obligations.ChecksDecide := by
  unfold Obligations.ChecksDecide
  intro s i op src c hi
  obtain ⟨f, g, he⟩ := exec_fleosRow (s := s) hi
  rw [he]
  exact ⟨fun st d r => runCmd_fails, runCmd_held, fun st d r => runCmd_done⟩
end

section
/-! PROOFS. CTX_CREATE and CTX_DESTROY (O23): a context that ends is gone from the table of contexts. -/
namespace Sys2Proof.Machine

variable {s : State} {ctx : Nat}

/-- Whatever ends with the context, its entry goes (R130). -/
theorem contexts_endContext {skip : Option Nat} {ab : FleosCmd → Option Nat} :
    tabGet (endContext ctx skip ab s).contexts ctx = none := by
  unfold endContext
  split
  · assumption
  · rw [postEvent_contexts]
    exact tabGet_tabDel_same ..

end Sys2Proof.Machine
end

section
open Sys2Proof.Machine

/-- Settles O23: `runCmd` runs the command; the branches of CTX_CREATE, and CTX_DESTROY by what `endContext` deletes. -/
theorem contexts : Obligations.Contexts := by
  unfold Obligations.Contexts
  refine fun s src c => ⟨fun h => ?_, fun h => ?_⟩
  · simp only [exec, execCtxCreate, runCmd_runs h, ctxAt, running_contexts]
    refine ⟨fun hc => ?_, fun hc hq => ?_, fun hc hq => ?_⟩
    · simp [hc, finishNoRes]
    · have hq' : quotasFit (running c s) c.desc = false := hq
      simp [hc, hq', finishNoRes]
    · have hq' : quotasFit (running c s) c.desc = true := hq
      simp [hc, hq', finishOk]
  · simp only [exec, execCtxDestroy, runCmd_runs h]
    refine ⟨fun hs => by simp [hs], fun hs => ⟨_, by rw [if_pos hs], ?_⟩⟩
    rw [finishOk_contexts]
    exact contexts_endContext
end

section
/-! PROOFS. A response packet and its request (O47). -/
namespace Sys2Proof.Machine

variable {s : State} {p : Packet} {gs : List Granule} {old : Option Nat} {r : Request}

/-- A good packet for this module reaches the work of its row, its sender heard from. -/
theorem takePacket_takes {op : Nat} (k : State → State) (hc : packetClean p = true) (ho : p.op = op)
    (hd : p.dstDev = devOf s) : takePacket p op k s = .next (k (heardFrom p.srcDev s)) := by
  unfold takePacket
  rw [if_neg (by simp [hc, ho, hd])]

theorem takeResponse_unasked (h : requestFor s p = none) : takeResponse p gs old s = pcount 35 p.srcDev 1 p s := by
  rw [takeResponse, h]

theorem takeResponse_busy (h : requestFor s p = some r) (h2 : p.status = 2) : takeResponse p gs old s =
    { s with fab := { s.fab with requests := s.fab.requests.map (fun x =>
        if x.pkt.dstDev = r.pkt.dstDev ∧ x.pkt.seq = r.pkt.seq then { x with busy := true } else x) } } := by
  rw [takeResponse, h]
  exact if_pos h2

theorem takeResponse_ok (h : requestFor s p = some r) (h0 : p.status = 0) : takeResponse p gs old s =
    afterRequest r (placeAnswer r gs old (Packet.cache p) (countAck r (dropRequest r s))) := by
  rw [takeResponse, h]
  dsimp only
  rw [if_neg (by omega), if_neg (by omega)]

theorem takeResponse_fails (h : requestFor s p = some r) (h0 : p.status ≠ 0) (h2 : p.status ≠ 2) :
    takeResponse p gs old s = afterRequest r (placeAnswer r (List.replicate (max 1 r.pkt.len) poisonGran) none false
      (fabricErr p.status (r.pkt.dstDev * 2 ^ 42 + r.pkt.addr) r.pkt.ctx (countAck r (dropRequest r s)))) := by
  rw [takeResponse, h]
  dsimp only
  rw [if_neg h2, if_pos h0]

end Sys2Proof.Machine
end

section
open Sys2Proof.Machine

/-- Settles O47: each of the four rows is `takeResponse`, whose branches are the clauses. -/
theorem responseRows : Obligations.ResponseRows := by
  unfold Obligations.ResponseRows
  rintro s p w i op gs old hc hd rfl ho hrow
  have he : exec i s = .next (takeResponse p gs old (heardFrom p.srcDev s)) := by
    simp only [List.mem_cons, Prod.mk.injEq, List.not_mem_nil, or_false] at hrow
    rcases hrow with ⟨rfl, rfl, rfl, rfl⟩ | ⟨rfl, rfl, rfl, rfl⟩ | ⟨rfl, rfl, rfl, rfl⟩ | ⟨rfl, rfl, rfl, rfl⟩
    all_goals exact takePacket_takes _ hc ho hd
  rw [he]
  refine ⟨fun h => ?_, fun r h h2 => ?_, fun r h h0 => ?_, fun r h h0 h2 => ?_⟩
  · rw [takeResponse_unasked h]
  · rw [takeResponse_busy h h2]
  · rw [takeResponse_ok h h0]
  · rw [takeResponse_fails h h0 h2]
end

section
/-! PROOFS. Flits (O40): counted, refused with one NAK, or delivered when their SEQ is the next expected. -/
namespace Sys2Proof.Machine

variable {s : State} {l : Nat} {f : List Byte}

/-- What counting a flit and the symbols FEC corrected on each lane leaves of the links. -/
theorem links_countFlit (cs : List Nat) :
    ((List.range 4).foldl (fun s i => lcount l (3 + i) (cs.getD i 0) s) (lcount l 2 1 s)).links = s.links :=
  foldl_keeps State.links (f := fun s i => lcount l (3 + i) (cs.getD i 0) s) (fun _ _ => rfl) _ _

theorem linkOf_congr {u : State} (h : u.links = s.links) : linkOf u l = linkOf s l := by
  rw [linkOf, linkOf, h]

theorem takeFlit_uncorrectable : takeFlit l f none s = sendNak l (lcount l 7 1 (lcount l 8 1
    (updLink l (fun k => { k with rxPos := rxAfter false k.rxPos }) (lcount l 2 1 s)))) := rfl

theorem takeFlit_bad {cs : List Nat} {w : State} (hb : flitGood f = false)
    (hw : w = (List.range 4).foldl (fun s i => lcount l (3 + i) (cs.getD i 0) s) (lcount l 2 1 s)) :
    takeFlit l f (some cs) s =
      sendNak l (lcount l 8 1 (updLink l (fun k => { k with rxPos := rxAfter false k.rxPos }) w)) := by
  simp [takeFlit, hb, hw]

theorem drainWaiting_of_nil (h : (linkOf s l).waiting = []) : drainWaiting l s = s := by
  rw [drainWaiting, h]
  rfl

/-- The place in the superframe and the credits, which every good flit brings (R357, R359). -/
def headTaken (l : Nat) (f : List Byte) (s : State) : State :=
  updLink l (fun k => { k with
      credits := (List.range 4).map (fun v => min 256 (k.credits.getD v 0 + fieldAt f (6 + v) 1)) })
    (updLink l (fun k => { k with rxPos := rxAfter (bitOf (fieldAt f 0 1) 3) k.rxPos }) s)

/-- A DATA flit whose SEQ is the next expected is delivered (R361). -/
def delivered (l : Nat) (f : List Byte) (s : State) : State :=
  let (v, s) := takeNat 4 s
  updLink l (fun k => { k with
    rxNext := (k.rxNext + 1) % 4096, nakSent := false, ackValid := true
    delivered := k.delivered ++ [slice f 12 240], owed := k.owed.modify v (· + 15) }) s

theorem linkOf_headTaken (hl : l < s.links.length) : linkOf (headTaken l f s) l = { linkOf s l with
    rxPos := rxAfter (bitOf (fieldAt f 0 1) 3) (linkOf s l).rxPos
    credits := (List.range 4).map (fun v => min 256 ((linkOf s l).credits.getD v 0 + fieldAt f (6 + v) 1)) } := by
  rw [headTaken, linkOf_updLink_same _ _ _ (by rw [updLink_length]; exact hl), linkOf_updLink_same _ _ _ hl]

/-- A good DATA flit without an acknowledgement on a link with nothing waiting. -/
theorem takeFlit_data {cs : List Nat} {w : State} (hg : flitGood f = true) (hl : l < s.links.length)
    (ht : fieldAt f 0 1 % 8 = 1) (ha : bitOf (fieldAt f 3 2) 15 = false) (hq : (linkOf s l).waiting = [])
    (hw : w = (List.range 4).foldl (fun s i => lcount l (3 + i) (cs.getD i 0) s) (lcount l 2 1 s)) :
    takeFlit l f (some cs) s =
      if fieldAt f 1 2 = (linkOf (headTaken l f w) l).rxNext then delivered l f (headTaken l f w)
      else headTaken l f w := by
  have hws : w.links = s.links := hw ▸ links_countFlit cs
  have hd : drainWaiting l (headTaken l f w) = headTaken l f w := by
    apply drainWaiting_of_nil
    rw [linkOf_headTaken (by rw [hws]; exact hl), linkOf_congr hws]
    exact hq
  unfold headTaken at hd ⊢
  simp only [takeFlit, ← hw, hg, ha, Option.isSome_some, Bool.true_and, Bool.not_true, Bool.false_eq_true, if_false, hd, ht]
  rfl

end Sys2Proof.Machine
end

section
open Sys2Proof.Machine

/-- Settles O40: the row's guard on the link, then the branches of `takeFlit`. -/
theorem flitRows : Obligations.FlitRows := by
  unfold Obligations.FlitRows
  rintro s l f k rfl
  simp only [exec, execFlitReceive, execNak, execReplayTimeout]
  refine ⟨fun h2 h5 b => by simp [h2, h5], ?_, fun ack h => by simp [h, takeNak], fun ack h => by simp [h],
    fun h hr => by simp [h, hr], fun h => by simp [h], fun h => by simp [sendNak, h]⟩
  intro hs cs w hw
  rw [if_pos hs, if_pos hs]
  refine ⟨rfl, fun hb => by rw [takeFlit_bad hb hw], fun hg hl ht ha hq => ⟨_, rfl, ?_⟩⟩
  have hws : w.links = s.links := hw ▸ links_countFlit cs
  have hl' : l < w.links.length := by rw [hws]; exact hl
  have hk := linkOf_headTaken (f := f) hl'
  rw [linkOf_congr hws] at hk
  rw [takeFlit_data hg hl ht ha hq hw, hk]
  split
  · rename_i hn
    have hd : linkOf (delivered l f (headTaken l f w)) l = { linkOf (headTaken l f w) l with
        rxNext := ((linkOf (headTaken l f w) l).rxNext + 1) % 4096, nakSent := false, ackValid := true
        delivered := (linkOf (headTaken l f w) l).delivered ++ [slice f 12 240]
        owed := (linkOf (headTaken l f w) l).owed.modify (takeNat 4 (headTaken l f w)).1 (· + 15) } :=
      linkOf_updLink_same _ _ _ (by simpa [headTaken] using hl')
    rw [hd, hk]
    exact ⟨rfl, fun _ => ⟨rfl, rfl, rfl⟩, fun h => absurd hn h⟩
  · rename_i hn
    rw [hk]
    exact ⟨rfl, fun h => absurd h hn, fun _ => ⟨rfl, rfl, rfl⟩⟩
end

section
/-! PROOFS. What each tile command answers, as its task stands on the unit afterwards (O29). -/
namespace Sys2Proof.Machine

variable {s w : State} {e : Engine} {u : Nat} {t : Task} {r : Run} {b : List Byte} {x : Queue}

/-- The instruction that is due belongs to the task on the unit, in the run that it reads. -/
theorem dueInstr_task {top : Nat} (h : dueInstr s e u top = some (t, r, b)) :
    taskAt s e u = some t ∧ t.run = some r := by
  unfold dueInstr at h
  split at h
  · rename_i t' ht
    split at h
    · rename_i hr _
      split at h
      · cases h
        exact ⟨ht, hr⟩
      · cases h
    · cases h
  · cases h

/-- A task that takes the place of `t` on its unit and then advances: the next instruction of the same run is due. -/
theorem advance_due {t' : Task} (ht : taskAt s e u = some t) (hw : w.eng = s.eng) (he : t'.engine = e) (hu : t'.unit = u)
    (hr : t'.run = some r) :
    ∃ k, taskAt (advance t (setTask t' w)) e u = some k ∧ k.pc = t'.pc + 1 ∧ k.run = t'.run ∧ k.rung = t'.rung ∧
      k.tile = t'.tile := by
  obtain ⟨he', hu'⟩ := taskAt_on ht
  have hs : taskAt (setTask t' w) e u = some t' := taskAt_setTask t' ((taskAt_congr hw e u).trans ht) he hu
  obtain ⟨a, c, h⟩ := taskAt_advance (t0 := t) (by rw [he', hu']; exact hs) hr
  rw [he', hu'] at h
  exact ⟨_, h, rfl, rfl, rfl, rfl⟩

/-- The same where the row leaves the task as it was before it advances. -/
theorem advance_due_same (ht : taskAt s e u = some t) (hr : t.run = some r) (hw : w.eng = s.eng) :
    ∃ k, taskAt (advance t w) e u = some k ∧ k.pc = t.pc + 1 ∧ k.run = t.run ∧ k.rung = t.rung := by
  obtain ⟨he', hu'⟩ := taskAt_on ht
  obtain ⟨a, c, h⟩ := taskAt_advance (s := w) (t0 := t) (by rw [he', hu', taskAt_congr hw, ht]) hr
  rw [he', hu'] at h
  exact ⟨_, h, rfl, rfl, rfl⟩

theorem taskAt_updQueue {q : Nat} {g : Queue → Queue} : taskAt (updQueue e q g s) e u = taskAt s e u := rfl

/-- `w` is `t` set anew on its unit, in the same run at the same rung, with other counts, code or stores. -/
def Resets (t : Task) (s w : State) : Prop :=
  ∃ t' z, w = setTask t' z ∧ z.eng = s.eng ∧ t'.engine = t.engine ∧ t'.unit = t.unit ∧ t'.pc = t.pc ∧ t'.run = t.run ∧
    t'.rung = t.rung

theorem addCounts_resets (c : Counts) : Resets t s (addCounts t x r c s) := by
  unfold addCounts
  exact ⟨_, _, rfl, by simp, rfl, rfl, rfl, rfl, rfl⟩

theorem noteStore_resets (rows : List (Nat × Nat)) : Resets t s (noteStore t r rows s) := by
  unfold noteStore
  exact ⟨_, s, rfl, rfl, rfl, rfl, rfl, rfl, rfl⟩

theorem advance_due_resets (ht : taskAt s e u = some t) (hr : t.run = some r) {z : State} (hz : z.eng = s.eng)
    (hw : Resets t z w) :
    ∃ k, taskAt (advance t w) e u = some k ∧ k.pc = t.pc + 1 ∧ k.run = t.run ∧ k.rung = t.rung := by
  obtain ⟨t', y, rfl, hy, he, hu, hpc, hrun, hrung⟩ := hw
  obtain ⟨he', hu'⟩ := taskAt_on ht
  obtain ⟨k, hk, h1, h2, h3, _⟩ := advance_due ht (hy.trans hz) (he.trans he') (hu.trans hu') (hrun.trans hr)
  exact ⟨k, hk, h1.trans (by rw [hpc]), h2.trans hrun, h3.trans hrung⟩

/-! ### The rows -/

theorem exec_tileRun {y : Run × State} (ht : taskAt s e u = some t) (hn : t.run = none) (hy : readRun t s = some y)
    (hq : queueAt s e t.queue = some x) (hd : headerDefect y.2 x y.1 = none) :
    exec (.tileRun e u) s = .next (beginRun t y.1 t.rung (if y.1.pg = 0 then y.2 else noteClass x y.1.gd y.2)) := by
  simp only [exec, execTileRun, ht, hn, hy, hq, hd, Option.isSome_none, Bool.false_eq_true, if_false]

/-- A task that repeats counts the run and the repeat before it begins at the wider rung. -/
def repeatCounted (e : Engine) (t : Task) (r : Run) (x : Queue) (n : Nat) (s : State) : State :=
  updQueue e t.queue (fun x => { x with repeated := x.repeated.orElse (fun _ => some (gdClass r.gd)) })
    (countRepeat x (gdClass r.gd) n (decide (t.repeats = 0)) (countRun x r s))

theorem exec_taskRepeat {n : Nat} (ht : taskAt s e u = some t) (hr : t.run = some r) (hq : queueAt s e t.queue = some x)
    (hf : t.failed = true) (hs : storesWait s t = false) (hn : nextRung t r = some n) :
    exec (.taskRepeat e u) s = .next (beginRun { t with repeats := t.repeats + 1 } r n (repeatCounted e t r x n s)) := by
  simp only [exec, execTaskRepeat, ht, hr, hq, hn, hf, hs, and_self, if_true, repeatCounted]

theorem taskAt_repeatCounted {n : Nat} : taskAt (repeatCounted e t r x n s) e u = taskAt s e u := by
  rw [repeatCounted, taskAt_updQueue]
  exact taskAt_congr (by simp) e u

theorem exec_tend (ht : taskAt s e u = some t) (hr : t.run = some r) (hq : queueAt s e t.queue = some x)
    (hl : t.pc < r.len) (h1 : fieldAt (t.code.headD []) 0 1 = 1) (h0 : leNat (slice (t.code.headD []) 1 31) = 0)
    (hs : storesWait s t = false) (hf : t.failed = false ∨ nextRung t r = none) :
    exec (.tend e u) s = .next (endTask t (if t.failed then
      bump 2 3 (guardScope x.ctx x.program (gdClass r.gd)) 1 (countRun x r s) else countRun x r s)) := by
  have hne : ¬ (t.failed = true ∧ (nextRung t r).isSome = true) := by
    rcases hf with hf | hf <;> simp [hf]
  simp only [exec, execTend, ht, hr, hq]
  rw [if_neg (by omega), if_neg (by rw [h1, h0]; decide), if_neg (not_not.mpr h1), if_neg (by simp [hs]), if_neg hne]

/-- What LOAD leaves before it counts: memory errors met, its rows read, granules of a failing queue kept. -/
def loadedRows (t : Task) (r : Run) (b : List Byte) (errs : List MemErr) (s : State) : Counts × State :=
  let z := loadRows t r b (rowsEff r (fieldAt b 4 2) (fieldAt b 12 2)) 0 Counts.none (errs.foldl applyMemErr s)
  (z.1, keepGrans (lostGrans errs s) z.2)

theorem exec_load (h : dueInstr s e u 2 = some (t, r, b)) (hq : queueAt s e t.queue = some x)
    (hd : loadDefect s t r b = none) (errs : List MemErr) :
    exec (.load e u errs) s =
      .next (advance t (addCounts t x r (loadedRows t r b errs s).1 (loadedRows t r b errs s).2)) := by
  simp only [exec, execLoad, h, hd, hq, loadedRows]

theorem loadedRows_eng {errs : List MemErr} : (loadedRows t r b errs s).2.eng = s.eng := by
  simp [loadedRows]

/-- What STORE leaves before it notes what it has written: its rows written, the values clipped counted. -/
def storedRows (t : Task) (r : Run) (x : Queue) (b : List Byte) (errs : List MemErr) (s : State) : State :=
  let z := storeRows t r b (rowsEff r (fieldAt b 4 2) (fieldAt b 12 2)) 0 0 s
  bump 2 4 (runScope x r) z.1 (keepGrans (lostGrans errs s) (errs.foldl applyMemErr z.2))

theorem exec_store (h : dueInstr s e u 3 = some (t, r, b)) (hq : queueAt s e t.queue = some x)
    (hd : storeDefect s t r b = none) (errs : List MemErr) :
    exec (.store e u errs) s = .next (advance t (noteStore t r
      (storeSpans r b (rowsEff r (fieldAt b 4 2) (fieldAt b 12 2))) (storedRows t r x b errs s))) := by
  simp only [exec, execStore, h, hd, hq, storedRows]

theorem storedRows_eng {errs : List MemErr} : (storedRows t r x b errs s).eng = s.eng := by
  simp [storedRows]

/-- The rows of a VOP, one by one (R164). -/
def vopRows (t : Task) (r : Run) (b : List Byte) (s : State) : State :=
  (List.range (rowsEff r (fieldAt b 4 2) (fieldAt b 24 2))).foldl (fun s i => vopRow t b i s) s

theorem exec_vop (h : dueInstr s e u 4 = some (t, r, b)) (hd : vopDefect t b = none) :
    exec (.vop e u) s = .next (advance t (vopRows t r b s)) := by
  simp only [exec, execVop, h, hd, vopRows]

theorem vopRows_eng : (vopRows t r b s).eng = s.eng := foldl_eng _ _ _ fun _ _ => vopRow_eng ..

/-- The rows of an MMA with the tile in its bank. -/
def mmaWorked (t : Task) (r : Run) (b : List Byte) (tile : Tile) (s : State) : State :=
  (List.range (rowsEff r (fieldAt b 4 1) (fieldAt b 16 2))).foldl
    (fun s i => mmaRow t b (rungFmt t.rung (fieldAt b 2 1 % 16)) tile i s)
    (noteFormats t r b tile (rowsEff r (fieldAt b 4 1) (fieldAt b 16 2)) s)

/-- The task with the tile of its MMA in its bank. -/
def banked (t : Task) (b : List Byte) (tile : Tile) : Task :=
  { t with tile := some tile, ahead := if bitOf (fieldAt b 1 1) 0 then t.ahead else none }

theorem exec_mma (h : dueInstr s e u 5 = some (t, r, b)) (hd : mmaDefect s t r b = none) {m : Nat} (hm : m < 2) :
    exec (.mma e u m) s = .next (advance t (setTask (banked t b (takeTile t r b s).1)
      (mmaWorked t r b (takeTile t r b s).1 (takeTile t r b s).2))) := by
  simp only [exec, execMma, h, hd]
  rw [if_neg (by omega)]
  rfl

theorem mmaWorked_eng {tile : Tile} : (mmaWorked t r b tile s).eng = s.eng := by
  simp [mmaWorked]

end Sys2Proof.Machine
end

section
open Sys2Proof.Machine

/-- Settles O29: what each row answers, and its task there by `taskAt_beginRun`, `taskAt_advance` and `taskAt_endTask`. -/
theorem tileTasksComplete : Obligations.TileTasksComplete := by
  unfold Obligations.TileTasksComplete
  intro s e u t r x b ht
  obtain ⟨he, hu⟩ := taskAt_on ht
  refine ⟨fun y hn hy hq hd => ?_, fun n hr hq hf hs hn => ?_, fun hr hq hl h1 h0 hs hf => ?_, fun h hq hd errs => ?_,
    fun h hq hd errs => ?_, fun h hd => ?_, fun h hd m hm => ?_, fun i hi => localGet_clearLocal e u i s hi⟩
  · have hz : taskAt (if y.1.pg = 0 then y.2 else noteClass x y.1.gd y.2) e u = some t := by
      rw [taskAt_congr _ e u, ht]
      split <;> simp [readRun_eng hy]
    obtain ⟨c, hc⟩ := taskAt_beginRun y.1 t.rung hz he hu
    exact ⟨_, c, exec_tileRun ht hn hy hq hd, hc⟩
  · have hz : taskAt (repeatCounted e t r x n s) e u = some t := taskAt_repeatCounted.trans ht
    obtain ⟨c, hc⟩ := taskAt_beginRun (t := { t with repeats := t.repeats + 1 }) r n hz he hu
    exact ⟨_, c, exec_taskRepeat ht hr hq hf hs hn, hc⟩
  · exact ⟨_, exec_tend ht hr hq hl h1 h0 hs hf, by rw [← he, ← hu]; exact taskAt_endTask t _⟩
  · obtain ⟨ht, hr⟩ := dueInstr_task h
    obtain ⟨k, hk⟩ := advance_due_resets ht hr loadedRows_eng (addCounts_resets (loadedRows t r b errs s).1)
    exact ⟨_, k, exec_load h hq hd errs, hk⟩
  · obtain ⟨ht, hr⟩ := dueInstr_task h
    obtain ⟨k, hk⟩ := advance_due_resets ht hr storedRows_eng (noteStore_resets _)
    exact ⟨_, k, exec_store h hq hd errs, hk⟩
  · obtain ⟨ht, hr⟩ := dueInstr_task h
    obtain ⟨k, hk⟩ := advance_due_same ht hr vopRows_eng
    exact ⟨_, k, exec_vop h hd, hk⟩
  · obtain ⟨ht, hr⟩ := dueInstr_task h
    obtain ⟨k, hk, hpc, hrun, hrung, htile⟩ := advance_due (t' := banked t b (takeTile t r b s).1) ht
      (mmaWorked_eng.trans (takeTile_eng t r b s)) he hu hr
    exact ⟨_, k, exec_mma h hd hm, hk, hpc, hrun, hrung, htile⟩
end

section
/-! PROOFS. What a VOP may change (O30): its rows only the local granules of their unit, the fetches meanwhile neither
registers nor contexts, streams, links or the herd, nor package memory outside the cache mode. -/
namespace Sys2Proof.Machine

variable {s w z : State} {e : Engine} {u : Nat} {t : Task} {r : Run} {b : List Byte}

/-! ### The local granules of one unit -/

/-- `w` is `s` but for payload and tags of the local granules of a unit. -/
structure LocalOnly (e : Engine) (u : Nat) (s w : State) : Prop where
  cells : ∀ a, (a < localBase e u ∨ localBase e u + 64 * localGrans e ≤ a) → cellGet w.mem.cells a = cellGet s.mem.cells a
  tags : ∀ a, (a < localBase e u / 8 ∨ localBase e u / 8 + 8 * localGrans e ≤ a) →
    cellGet w.mem.tags a = cellGet s.mem.tags a
  rest : w = { s with mem := w.mem }

theorem LocalOnly.refl : LocalOnly e u s s := ⟨fun _ _ => rfl, fun _ _ => rfl, rfl⟩

theorem LocalOnly.keeps {α : Type} (h : LocalOnly e u s w) (π : State → α) (hπ : ∀ m, π { s with mem := m } = π s) :
    π w = π s :=
  (congrArg π h.rest).trans (hπ _)

theorem LocalOnly.trans (h : LocalOnly e u s w) (h' : LocalOnly e u w z) : LocalOnly e u s z := by
  refine ⟨fun a ha => (h'.cells a ha).trans (h.cells a ha), fun a ha => (h'.tags a ha).trans (h.tags a ha), ?_⟩
  rw [h'.rest, h.rest]

theorem LocalOnly.foldl {α : Type} {f : State → α → State} {l : List α}
    (h : ∀ x ∈ l, ∀ s, LocalOnly e u s (f s x)) (s : State) : LocalOnly e u s (l.foldl f s) := by
  induction l generalizing s with
  | nil => exact .refl
  | cons x l ih =>
    exact (h x (List.mem_cons_self ..) s).trans (ih (fun y hy => h y (List.mem_cons_of_mem _ hy)) (f s x))

theorem localBase_dvd (e : Engine) (u : Nat) : 64 ∣ localBase e u := by
  cases e <;> simp only [localBase] <;> omega

theorem localPut_localOnly {i : Nat} (g : Granule) (h : i < localGrans e) : LocalOnly e u s (localPut e u i g s) := by
  obtain ⟨k, hk⟩ := localBase_dvd e u
  refine ⟨fun a ha => ?_, fun a ha => ?_, rfl⟩
  · exact cellGet_cellsSet_other _ _ _ _ (by rw [slice_length]; omega)
  · exact cellGet_cellsSet_other _ _ _ _ (by rw [slice_length]; omega)

/-! ### The rows of a VOP -/

/-- The granules of the result of a VOP lie in local memory (R164). -/
theorem vopDefect_none_fits (h : vopDefect t b = none) :
    fieldAt b 12 2 + (fieldAt b 4 2 - 1) * fieldAt b 18 2 +
      (if vopReduces (fieldAt b 1 1) then 1 else rowGrans 11 (fieldAt b 6 2)) ≤ localGrans t.engine := by
  simp only [vopDefect, firstDefect, Option.map_eq_none_iff, List.find?_eq_none, List.mem_cons, List.not_mem_nil, or_false,
    forall_eq_or_imp, forall_eq, Bool.or_eq_true, not_or, localOver, decide_eq_true_eq] at h
  exact Nat.le_of_not_lt h.2.2.2

theorem vopRow_localOnly {i : Nat} (hd : vopDefect t b = none) (hi : i < fieldAt b 4 2) (s : State) :
    LocalOnly t.engine t.unit s (vopRow t b i s) := by
  have hf := vopDefect_none_fits hd
  have hm : i * fieldAt b 18 2 ≤ (fieldAt b 4 2 - 1) * fieldAt b 18 2 := Nat.mul_le_mul_right _ (by omega)
  unfold vopRow
  dsimp only
  split
  · rename_i hr
    rw [if_pos hr] at hf
    exact localPut_localOnly _ (by omega)
  · rename_i hr
    rw [if_neg hr] at hf
    refine LocalOnly.foldl (fun j hj s => localPut_localOnly _ ?_) s
    have := List.mem_range.mp hj
    omega

theorem rowsEff_le (r : Run) (rows r0 : Nat) : rowsEff r rows r0 ≤ rows := by
  unfold rowsEff
  split
  · exact Nat.le_refl _
  · exact Nat.min_le_left ..

theorem vopRows_localOnly (hd : vopDefect t b = none) (s : State) :
    LocalOnly t.engine t.unit s (vopRows t r b s) :=
  LocalOnly.foldl (fun _ hi => vopRow_localOnly hd (Nat.lt_of_lt_of_le (List.mem_range.mp hi) (rowsEff_le ..))) s

/-! ### Fetches -/

/-- `w` keeps of `s` what a read of package memory leaves: outside the cache mode package memory itself. -/
structure Fetched (s w : State) : Prop where
  boot : w.boot = s.boot
  regs : w.regs = s.regs
  contexts : w.contexts = s.contexts
  streams : w.streams = s.streams
  links : w.links = s.links
  herd : w.herd = s.herd
  mem : cacheMode s = false → w.mem = s.mem

theorem Fetched.refl : Fetched s s := ⟨rfl, rfl, rfl, rfl, rfl, rfl, fun _ => rfl⟩

theorem Fetched.trans (h : Fetched s w) (h' : Fetched w z) : Fetched s z := by
  refine ⟨h'.boot.trans h.boot, h'.regs.trans h.regs, h'.contexts.trans h.contexts, h'.streams.trans h.streams,
    h'.links.trans h.links, h'.herd.trans h.herd, fun hc => ?_⟩
  have hw : cacheMode w = false := by rw [cacheMode, h.boot, h.contexts]; exact hc
  exact (h'.mem hw).trans (h.mem hc)

theorem Fetched.foldlPair {α β : Type} {f : β × State → α → β × State} (h : ∀ p x, Fetched p.2 (f p x).2) (l : List α)
    (p : β × State) : Fetched p.2 (l.foldl f p).2 := by
  induction l generalizing p with
  | nil => exact .refl
  | cons x l ih => exact (h p x).trans (ih (f p x))

/-- In the cache mode a read may change package memory: no clause of `Fetched` then speaks of it. -/
theorem Fetched.cached (h : cacheMode s = true) (hb : w.boot = s.boot) (hr : w.regs = s.regs)
    (hc : w.contexts = s.contexts) (hs : w.streams = s.streams) (hl : w.links = s.links) (hh : w.herd = s.herd) :
    Fetched s w :=
  ⟨hb, hr, hc, hs, hl, hh, fun hn => by rw [h] at hn; cases hn⟩

theorem addressErr_fetched (a : Nat) (wr : Bool) (s : State) : Fetched s (addressErr a wr s) := by
  refine ⟨?_, ?_, ?_, ?_, ?_, ?_, fun _ => ?_⟩ <;> simp

/-- What a write to T1 of a line put back leaves, beside memory and error records. -/
structure WrittenBack (s w : State) : Prop where
  boot : w.boot = s.boot
  regs : w.regs = s.regs
  contexts : w.contexts = s.contexts
  streams : w.streams = s.streams
  links : w.links = s.links
  herd : w.herd = s.herd

theorem t1Put_writtenBack (a : Nat) (g : Granule) (s : State) : WrittenBack s (t1Put a g s) := by
  unfold t1Put
  dsimp only
  split
  · constructor <;> simp
  · constructor <;> simp

theorem writeBack_writtenBack (l : CacheLine) (s : State) : WrittenBack s (writeBack l s) := by
  have hstep : ∀ s i, WrittenBack s
      (if l.dirty.contains i then bump 8 2 0 1 (t1Put (lineAddr l i) (l.granules.getD i zeroGran) s) else s) := by
    intro s i
    obtain ⟨h1, h2, h3, h4, h5, h6⟩ := t1Put_writtenBack (lineAddr l i) (l.granules.getD i zeroGran) s
    split
    · exact ⟨h1, h2, h3, h4, h5, h6⟩
    · exact ⟨rfl, rfl, rfl, rfl, rfl, rfl⟩
  constructor
  · exact foldl_keeps State.boot (fun s i => (hstep s i).boot) _ s
  · exact foldl_keeps State.regs (fun s i => (hstep s i).regs) _ s
  · exact foldl_keeps State.contexts (fun s i => (hstep s i).contexts) _ s
  · exact foldl_keeps State.streams (fun s i => (hstep s i).streams) _ s
  · exact foldl_keeps State.links (fun s i => (hstep s i).links) _ s
  · exact foldl_keeps State.herd (fun s i => (hstep s i).herd) _ s

theorem touchLine_writtenBack (a : Nat) (s : State) : WrittenBack s (touchLine a s) := by
  unfold touchLine
  dsimp only
  split
  · exact ⟨rfl, rfl, rfl, rfl, rfl, rfl⟩
  · split
    · rename_i v _ _
      obtain ⟨h1, h2, h3, h4, h5, h6⟩ :=
        writeBack_writtenBack v { s with mem := { s.mem with cache := s.mem.cache.filter (fun x => x != v) } }
      exact ⟨h1, h2, h3, h4, h5, h6⟩
    · exact ⟨rfl, rfl, rfl, rfl, rfl, rfl⟩

theorem loadGran_fetched (a : Nat) (s : State) : Fetched s (loadGran a s).2 := by
  unfold loadGran
  split
  · exact addressErr_fetched a false s
  · exact .refl
  · split
    · exact addressErr_fetched a false s
    · exact .refl
  · split
    · rename_i hc
      obtain ⟨h1, h2, h3, h4, h5, h6⟩ := touchLine_writtenBack a s
      have hf := Fetched.cached hc h1 h2 h3 h4 h5 h6
      dsimp only
      split
      · exact hf
      · exact hf
    · exact ⟨rfl, rfl, rfl, rfl, rfl, rfl, fun _ => rfl⟩

theorem loadGrans_fetched (n a : Nat) (s : State) : Fetched s (loadGrans n a s).2 := by
  induction n generalizing a s with
  | zero => exact .refl
  | succ n ih => exact (loadGran_fetched a s).trans (ih (a + 64) (loadGran a s).2)

theorem loadBytes_fetched (a n : Nat) (s : State) : Fetched s (loadBytes a n s).2.2 := loadGrans_fetched _ _ s

theorem fetchCode_fetched (t : Task) (r : Run) (s : State) : Fetched s (fetchCode t r s).2 := by
  unfold fetchCode
  refine Fetched.foldlPair (fun p _ => ?_) _ (t, s)
  exact loadBytes_fetched _ 32 p.2

theorem fetchTile_fetched (r : Run) (n : Nat) (b : List Byte) (s : State) : Fetched s (fetchTile r n b s).2 := by
  unfold fetchTile
  refine Fetched.foldlPair (fun p _ => ?_) _ (([] : List (List Granule)), s)
  exact loadGrans_fetched _ _ p.2

theorem fetchAhead_fetched (t : Task) (r : Run) (s : State) : Fetched s (fetchAhead t r s).2 := by
  unfold fetchAhead
  split
  · exact .refl
  · split
    · exact .refl
    · exact fetchTile_fetched ..

theorem advance_fetched (t : Task) (s : State) : Fetched s (advance t s) := by
  unfold advance
  split
  · exact .refl
  · split
    · exact .refl
    · rename_i t' _ _ r _
      have h := (fetchAhead_fetched t' r s).trans (fetchCode_fetched
        { (fetchAhead t' r s).1 with pc := (fetchAhead t' r s).1.pc + 1, code := (fetchAhead t' r s).1.code.drop 1 } r
        (fetchAhead t' r s).2)
      obtain ⟨h1, h2, h3, h4, h5, h6, h7⟩ := h
      exact ⟨h1, h2, h3, h4, h5, h6, h7⟩

end Sys2Proof.Machine
end

section
open Sys2Proof.Machine

/-- Settles O30: the rows by `LocalOnly`, the advance to the next instruction by `Fetched`. -/
theorem vectorFrame : Obligations.VectorFrame := by
  unfold Obligations.VectorFrame
  intro s e u t r b h hd
  obtain ⟨rfl, rfl⟩ := taskAt_on (dueInstr_task h).1
  have hl : LocalOnly t.engine t.unit s (vopRows t r b s) := vopRows_localOnly hd s
  obtain ⟨_, hr, hc, hs, hk, hh, hm⟩ := advance_fetched t (vopRows t r b s)
  have hcache : cacheMode (vopRows t r b s) = cacheMode s := hl.keeps cacheMode fun _ => rfl
  refine ⟨vopRows t r b s, exec_vop h hd, hl.cells, hl.tags, hl.keeps State.host fun _ => rfl,
    hl.keeps State.regs fun _ => rfl, hl.keeps State.contexts fun _ => rfl, hl.keeps State.streams fun _ => rfl,
    hl.keeps State.links fun _ => rfl, hl.keeps State.errs fun _ => rfl, hl.keeps State.herd fun _ => rfl,
    fun hn => hm (hcache.trans hn), hr.trans (hl.keeps State.regs fun _ => rfl),
    hc.trans (hl.keeps State.contexts fun _ => rfl), hs.trans (hl.keeps State.streams fun _ => rfl),
    hk.trans (hl.keeps State.links fun _ => rfl), hh.trans (hl.keeps State.herd fun _ => rfl)⟩
end

section
/-! PROOFS. The step and the reset state (O57, O58). -/
namespace Sys2Proof.Machine

variable {s : State}

theorem step_of_cons {c : Instr} {rest : List Instr} (h : s.pending = c :: rest) :
    step s = exec c { s with pending := rest } := by
  rw [step, h]

theorem step_of_nil (h : s.pending = []) : step s = .next (idleCycle s) := by
  rw [step, h]

/-- One cycle of the 1 GHz reference: 2^32 fractions and the rate adjustment (log entry 4). -/
theorem idleCycle_runs {n : Nat} (hp : powerRuns s = true) (hm : s.boot.mode ≠ .off)
    (hn : (n : Int) = (s.herd.time * 2 ^ 32 + s.herd.frac + 2 ^ 32 : Nat) + s.herd.rate) (hl : n / 2 ^ 32 < 2 ^ 64) :
    idleCycle s = { s with herd := { s.herd with time := n / 2 ^ 32, frac := n % 2 ^ 32 } } := by
  unfold idleCycle
  rw [if_neg (by simp [hp, hm, inMode]), ← hn, Int.toNat_natCast]
  dsimp only
  rw [Nat.mod_eq_of_lt hl]
  rfl

end Sys2Proof.Machine
end

section
open Sys2Proof.Machine

/-- Settles O57: `step` by the queue, `idleCycle` by the power control. -/
theorem stepRunsFront : Obligations.StepRunsFront := by
  unfold Obligations.StepRunsFront
  refine fun s => ⟨fun c rest => step_of_cons, fun h hi => ?_, fun n h hp hm hn hl => ?_⟩
  · rw [step_of_nil h, idleCycle, if_pos]
    rcases hi with hi | hi <;> simp [hi, inMode]
  · rw [step_of_nil h, idleCycle_runs hp hm hn hl]

/-- Settles O58: each field of the reset state by evaluation. -/
theorem resetState : Obligations.ResetState := by
  unfold Obligations.ResetState
  decide +kernel
end

section
/-! PROOFS. Completing a command (O22), interrupts (O16) and the doorbell rows (O11). -/
namespace Sys2Proof.Machine

variable {s : State} {c : FleosCmd} {order : Nat}

/-- The phase of an open command is not `done`, so `finish` goes by the command's source. -/
theorem finish_of_open (st d r : Nat) (hc : cmdNo s order = some c) (ho : c.isOpen = true) :
    finish order st d r s = match c.src with
      | .ring _ _ _ => updCmd order (fun x => { x with phase := .done st d r, time := stampOf s }) s
      | .mgt p =>
        let s := { s with cmds := s.cmds.filter (fun x => x.order ≠ order),
                          mgt := { s.mgt with ports := s.mgt.ports.modify p (fun m => { m with outstanding := none }) } }
        if !bitOf s.regs.mgtCtrl p then s
        else emit (.mgt p 1 0 c.mgtTag
          (completionBytes 0 (fieldAt c.desc 4 4) st 0 c.opcode d r (stampOf s))) s := by
  unfold FleosCmd.isOpen at ho
  rw [finish, hc]
  dsimp only
  split
  · rename_i hd
    rw [hd] at ho
    cases ho
  · rfl

/-- A vector whose mask goes sends at once: it has a message only if its pending bit was set while masked (R87). -/
theorem unmaskVector_eq {fn v : Nat} (hfn : fn < s.fns.length) (hi : insecureAt s (msixOf (fnOf s fn) v).addr = false) :
    unmaskVector fn v s = { s with
      fns := s.fns.modify fn (fun f => { f with
        msix := tabSet f.msix v { msixOf (fnOf s fn) v with masked := false, pendingBit := false } })
      out := s.out ++ (if (msixOf (fnOf s fn) v).masked && (msixOf (fnOf s fn) v).pendingBit then [Out.msix fn v] else []) } := by
  have hm : msixOf (fnOf (updFn fn (fun f => { f with
      msix := tabSet f.msix v { msixOf (fnOf s fn) v with masked := false, pendingBit := false } }) s) fn) v =
      { msixOf (fnOf s fn) v with masked := false, pendingBit := false } := by
    rw [fnOf_updFn_same hfn, msixOf, tabGet_tabSet_same]
    rfl
  unfold unmaskVector
  dsimp only
  split
  · rw [signalVector, hm, if_neg (by simp), if_neg]
    · rfl
    · exact Bool.eq_false_iff.mp hi
  · rw [List.append_nil]
    rfl

end Sys2Proof.Machine
end

section
open Sys2Proof.Machine

/-- Settles O22: `finish` by the source of the command. -/
theorem commandCompletes : Obligations.CommandCompletes := by
  unfold Obligations.CommandCompletes
  intro s order st d r c hc ho
  rw [finish_of_open st d r hc ho]
  refine ⟨fun fn rn ix hs => by rw [hs]; rfl, fun p hs => ⟨_, rfl, ?_⟩⟩
  rw [hs]
  cases hb : bitOf s.regs.mgtCtrl p
  · simp [hb]
  · dsimp only
    rw [if_neg (by simp [hb]), if_pos rfl]
    exact ⟨rfl, rfl, rfl, rfl⟩

/-- Settles O16: the timer's row, `signalVector` by mask and stream, and the mask taken off a vector. -/
theorem interrupts : Obligations.Interrupts := by
  unfold Obligations.Interrupts
  refine ⟨fun s fn n r hr hi hm hu => ?_, fun s fn v hfn => ⟨fun h => ?_, fun h => ⟨fun hi => ?_, fun hi => ?_⟩⟩, ?_⟩
  · have hr' : tabGet (fnOf s fn).rings n = some r := hr
    simp [exec, execMsixModerationTimer, hr, hi, hm, hu, signalRing, hr']
  · rw [signalVector, if_pos h]
  · rw [signalVector, if_neg (by simp [h]), if_neg (by simp [hi])]
    rfl
  · rw [signalVector, if_neg (by simp [h]), if_pos hi]
  · rintro s fn v e hu hv hfn rfl hi
    simp only [exec, execMsixUnmask, hu, hv, decide_true, Bool.and_self, if_true]
    exact ⟨_, rfl, unmaskVector_eq hfn hi⟩

/-- Settles O11: each row takes the host's stores and then reads, or not. -/
theorem doorbellRows : Obligations.DoorbellRows := by
  unfold Obligations.DoorbellRows
  intro s st fn off size
  refine ⟨fun hp => ⟨?_, fun h0 hz hu => ?_, fun h0 => ?_, fun hr => ?_⟩, fun hp i hi => ?_⟩
  · simp [exec, execDoorbellRead, hp]
  · simp [exec, execRingNudge, h0, hz, hu, hp]
  · simp [exec, execRingNudge, h0]
  · simp [exec, execDoorbellPoll, hp, hr, readAllDoorbells]
  · simp only [List.mem_cons, List.not_mem_nil, or_false] at hi
    rcases hi with rfl | rfl | rfl
    · simp [exec, execDoorbellRead, hp]
    · simp [exec, execRingNudge, hp]
    · simp [exec, execDoorbellPoll, hp]
end

section
/-! PROOFS. The queue engine's commands: those that retire as they start, start, issue and retirement (O18, O20). -/
namespace Sys2Proof.Machine

variable {s : State} {e : Engine} {q : Nat} {x : Queue} {c : Cmd}

theorem runCommon_notYet {op : Nat} {k : Queue → Cmd → State → State} (hw : waitingHead s e q = some (x, c))
    (hc : startCheck s e x c = .notYet) : runCommon e q op k s = .next s := by
  simp [runCommon, hw, hc]

theorem runCommon_go {op : Nat} {k : Queue → Cmd → State → State} (hw : waitingHead s e q = some (x, c))
    (hc : startCheck s e x c = .go) (ho : c.opcode = op) :
    runCommon e q op k s = .next (settleQueue e q (k x c (countStart c s))) := by
  simp [runCommon, hw, hc, ho]

theorem queueAt_setQueue : queueAt (setQueue e q x s) e q = some x := tabGet_tabSet_same ..

/-- A task placed is the last of the tasks, not begun; one that was not issued before has the next index (R103, R106). -/
theorem placeTask_places (u : Nat) : ∃ k, (placeTask e q u x c s).eng.tasks = s.eng.tasks ++ [k] ∧ k.engine = e ∧ k.unit = u ∧
    k.queue = q ∧ k.run = none ∧ k.failed = false ∧ (x.reissue = [] →
      k.index = x.issued ∧ (queueAt (placeTask e q u x c s) e q).map (·.issued) = some (x.issued + 1)) := by
  unfold placeTask
  dsimp only
  have ht : (if (x.issued == 0 && x.reissue.isEmpty) = true then
      updProg x.ctx x.program (fun p => { p with rungs := p.rungs ++ [((e, q, x.head),
        if (x.issued == 0 && x.reissue.isEmpty) = true then startRung s e q x c else x.rung)] }) s
      else s).eng = s.eng := by
    split <;> simp
  split
  · rename_i hr
    exact ⟨_, congrArg (·.tasks ++ _) ht, rfl, rfl, rfl, rfl, rfl, fun h => by rw [h] at hr; cases hr⟩
  · refine ⟨_, congrArg (·.tasks ++ _) ht, rfl, rfl, rfl, rfl, rfl, fun _ => ⟨rfl, ?_⟩⟩
    rw [queueAt_setQueue]
    rfl

end Sys2Proof.Machine
end

section
open Sys2Proof.Machine

/-- Settles O18: the four rows by `startCheck`. -/
theorem commonOpcodes : Obligations.CommonOpcodes := by
  unfold Obligations.CommonOpcodes
  intro s e q x c hw
  refine ⟨fun hc i hi => ?_, fun hc => ⟨fun ho => ?_, fun ho => ?_, fun ho => ?_⟩⟩
  · simp only [List.mem_cons, List.not_mem_nil, or_false] at hi
    rcases hi with rfl | rfl | rfl | rfl
    · simp only [exec, execNop, runCommon_notYet hw hc]
    · simp only [exec, execEndList, runCommon_notYet hw hc]
    · simp only [exec, execFrameLoop, runCommon_notYet hw hc]
    · simp only [exec, execCommandStart, hw, hc]
  · simp only [exec, execNop, runCommon_go hw hc ho]
  · simp only [exec, execEndList, runCommon_go hw hc ho]
  · simp only [exec, execFrameLoop, runCommon_go hw hc ho]

/-- Settles O20: start, issue and retirement by the branches of their rows. -/
theorem queueEngine : Obligations.QueueEngine := by
  unfold Obligations.QueueEngine
  refine ⟨?_, fun s e q x c hq hh ht hl hs => ?_, fun s e q x c hq hh hx => ?_⟩
  · rintro s e q x c hw hc ho y rfl
    simp only [exec, execCommandStart, hw, hc]
    rw [if_neg (by omega)]
  · have hgo : (!hasTask x || lowerFirst s e q || s.pwr.stopped) = false := by simp [ht, hl, hs]
    refine ⟨fun hu => ?_, fun u hu h1 h2 => ?_, fun u he hu => ?_⟩
    · simp [exec, execTaskIssue, hq, hh, hu]
    · refine ⟨holdUnit e q u x s, ?_, by simp [holdUnit, setQueue], queueAt_setQueue, rfl⟩
      simp only [exec, execTaskIssue, hq, hh, hgo, hu]
      cases e <;> trivial
    · obtain ⟨k, hk⟩ := placeTask_places (s := s) (e := e) (q := q) (x := x) (c := c) u
      refine ⟨placeTask e q u x c s, k, ?_, hk⟩
      simp only [exec, execTaskIssue, hq, hh, hgo, hu]
      rcases he with rfl | rfl <;> rfl
  · simp only [exec, execCommandRetire, hq, hh, hx]
    exact ⟨fun h => by simp [h], fun h => by simp [h]⟩
end

section
/-! PROOFS. The Fleos commands that set contexts, regions, programs and streams (O24 to O27). A command that runs sees the
state with its own phase changed: what does not look at the commands is as before. -/
namespace Sys2Proof.Machine

variable {s : State} {c : FleosCmd}

@[simp] theorem ctxAt_running (x : Nat) : ctxAt (running c s) x = ctxAt s x := rfl
@[simp] theorem progAt_running (x p : Nat) : progAt (running c s) x p = progAt s x p := rfl
@[simp] theorem inMode_running (m : Mode) : inMode (running c s) m = inMode s m := rfl
@[simp] theorem hostBad_running (a n : Nat) : hostBad (running c s) a n = hostBad s a n := rfl
@[simp] theorem hostBytes_running (a n : Nat) : hostBytes (running c s) a n = hostBytes s a n := rfl
@[simp] theorem openStream_running (x n : Nat) : openStream (running c s) x n = openStream s x n := rfl
@[simp] theorem launchCome_running (d : FleosCmd) : launchCome (running c s) d = launchCome s d := by
  rw [launchCome, launchCome, running_herd]
@[simp] theorem progQueues_running (p : Program) : progQueues (running c s) p = progQueues s p := rfl
@[simp] theorem batchList_running (d : FleosCmd) : batchList (running c s) d = batchList s d := rfl
@[simp] theorem running_due : (running c s).due = s.due := rfl
@[simp] theorem running_slotUses : (running c s).slotUses = s.slotUses := rfl

theorem barrierHeld_running (x : Nat) : barrierHeld (running c s) x = barrierHeld s x := rfl
@[simp] theorem mayStart_running (d : FleosCmd) (p : Program) : mayStart (running c s) d p = mayStart s d p := by
  rw [mayStart, mayStart, launchCome_running, barrierHeld_running]

theorem inMode_ready_iff : inMode s .ready = true ↔ s.boot.mode = .ready := beq_iff_eq

/-! ### FENCE -/

/-- No open command comes before `order`. -/
theorem none_earlier {t : State} {order : Nat} {p : FleosCmd → Bool}
    (h : ∀ x ∈ t.cmds, x.isOpen = true → order ≤ x.order) :
    t.cmds.any (fun x => x.isOpen && decide (x.order < order) && p x) = false := by
  rw [List.any_eq_false]
  intro x hx
  simp only [Bool.and_eq_true, decide_eq_true_eq, not_and]
  intro ⟨ho, hlt⟩
  exact absurd (h x hx ho) (by omega)

/-- A note on a command changes neither its order nor whether it is open. -/
theorem none_earlier_noted {t : State} {order n k : Nat} (h : ∀ x ∈ t.cmds, x.isOpen = true → order ≤ x.order) :
    ∀ x ∈ (updCmd n (fun y => { y with note := k }) t).cmds, x.isOpen = true → order ≤ x.order := by
  intro x hx ho
  obtain ⟨y, hy, rfl⟩ := List.mem_map.mp hx
  have hs := h y hy
  split at ho
  · exact (hs ho).trans_eq (by split <;> rfl)
  · exact (hs ho).trans_eq (by split <;> rfl)

@[simp] theorem ctx_noted (n : Nat) : ({ c with note := n } : FleosCmd).ctx = c.ctx := rfl

theorem ctxAt_updCtx_same {x : Context} {ctx : Nat} {g : Context → Context} (h : ctxAt s ctx = some x) :
    ctxAt (updCtx ctx g s) ctx = some (g x) := by
  rw [ctxAt, updCtx]
  exact (tabGet_tabUpd_same ..).trans (congrArg (Option.map g) h)

end Sys2Proof.Machine
end

section
open Sys2Proof.Machine

/-- Settles O24: the branches of the two rows, in READY at the next tick and else at once. -/
theorem regions : Obligations.Regions := by
  unfold Obligations.Regions
  refine fun s src c x hx => ⟨?_, ?_⟩
  · rintro h reg r rfl rfl
    simp only [exec, execRegionMap, runCmd_runs h, ctxAt_running, hx]
    refine ⟨fun hc => ?_, fun hc ho => ?_, ?_⟩
    · have hc' : regionClash (running c s) x (fieldAt c.desc 18 2) (mappedRegion c.desc) = true := hc
      simp [hc', finishNoRes]
    · have hc' : regionClash (running c s) x (fieldAt c.desc 18 2) (mappedRegion c.desc) = false := hc
      have ho' : regionOver (running c s) x (mappedRegion c.desc) = true := ho
      simp [hc', ho', finishNoRes]
    · rintro hc ho t rfl
      have hc' : regionClash (running c s) x (fieldAt c.desc 18 2) (mappedRegion c.desc) = false := hc
      have ho' : regionOver (running c s) x (mappedRegion c.desc) = false := ho
      simp only [hc', ho', Bool.false_eq_true, if_false, inMode, updCtx_boot, running_boot, beq_iff_eq, regionLive, finishOk,
        updCtx_due, running_due]
  · rintro h reg rfl
    simp only [exec, execRegionUnmap, runCmd_runs h, ctxAt_running, hx, Option.bind_some]
    refine ⟨fun hr => ?_, fun r hr hn => ?_, fun r hr hn => ?_⟩
    · simp [hr, finishBad]
    · simp [hr, hn, finishNoRes]
    · simp [hr, hn, inMode_ready_iff]

end

section
open Sys2Proof.Machine

/-- Settles O25: what each row does once its checks pass. -/
theorem programs : Obligations.Programs := by
  unfold Obligations.Programs
  refine fun s src c => ⟨fun x im base h hx hb hi hc hf ho => ?_, fun p h hp hm hq hs => ?_, fun p h hp hl => ?_,
    fun p h h1 hp => ?_, fun h h0 hs hf => ?_⟩
  · have hf' : freeEvents (running c s) (c.ctx, fieldAt c.desc 18 2) im.events = some base := hf
    simp [exec, execProgramLoad, runCmd_runs h, hx, hb, hi, hc, hf', ho, finishOk]
  · have hm' : ¬ ((!inMode (running c s) .ready && (p.isFrame || usesFrame (running c s) p)) = true) := by
      have hu : usesFrame (running c s) p = usesFrame s p := rfl
      rw [inMode_running, hu]
      rcases hm with hm | ⟨hp, hu⟩
      · simp [inMode, hm]
      · simp [hp, hu]
    have hq' : ¬ ((progQueues (running c s) p).any (fun x => x.state != 1 && x.state != 4) = true) := by
      rw [progQueues_running]
      intro ha
      obtain ⟨q, hq1, hq2⟩ := List.any_eq_true.mp ha
      have := List.all_eq_true.mp hq q hq1
      simp_all
    simp only [exec, execProgramStart, runCmd_runs h, progAt_running, hp]
    rw [if_neg hm', if_neg hq', mayStart_running, if_pos hs]
  · simp [exec, execProgramStop, runCmd_runs h, hp, hl]
  · simp [exec, execResume, runCmd_runs h, h1, hp, finishOk]
  · simp [exec, execResume, runCmd_runs h, h0, hs, hf, finishOk]

/-- Settles O26: what each row does once its checks pass. -/
theorem streamCommands : Obligations.StreamCommands := by
  unfold Obligations.StreamCommands
  intro s src c number hnum
  subst hnum
  refine ⟨fun pa b sa n slot use h hpa hb hsa hn hq hl hp hp' hd hs hu => ?_, fun x h hx hm hc hp => ?_,
    fun x h hx hm hc => ?_, fun x i op stop hi h hx hm => ?_, fun x h hx hc hl hb => ?_, fun h hb hn ho => ?_⟩
  · simp only [exec, execStreamOpen, runCmd_runs h, ctxAt_running, hostBad_running, hostBytes_running, running_streams,
      running_slotUses, ← hpa, ← hb, ← hsa, ← hn, hp, hs, ← hu, finishOk]
    rw [if_neg (by omega), if_neg]
    · rfl
    · rcases hp' with h0 | h0 <;> simp [h0]
  · simp [exec, execStreamClose, closeCmd, runCmd_runs h, hx, hc, hp, inMode, hm]
  · simp [exec, execStreamAbort, closeCmd, runCmd_runs h, hx, hc, inMode, hm]
  · simp only [List.mem_cons, List.not_mem_nil, or_false, Prod.mk.injEq] at hi
    rcases hi with ⟨rfl, rfl, rfl⟩ | ⟨rfl, rfl, rfl⟩
    · simp [exec, execStreamClose, closeCmd, runCmd_runs h, hx, inMode, hm]
    · simp [exec, execStreamAbort, closeCmd, runCmd_runs h, hx, inMode, hm]
  · simp only [exec, execPromptSubmit, runCmd_runs h, openStream_running, hx, hostBad_running, hb]
    rw [if_neg (by simp [hc]), if_neg (by omega), if_neg (by simp)]
  · have ha : (batchList s c).any (fun x => (openStream s c.ctx x).isNone) = false := by
      rw [List.any_eq_false]
      intro k hk
      simp [Option.isSome_iff_ne_none.mp (ho k hk)]
    simp only [exec, execBatchSet, runCmd_runs h, hostBad_running, hb, Bool.false_eq_true, if_false]
    rw [if_neg]
    · rfl
    · simp only [batchList_running, openStream_running, ha]
      simp [hn]

/-- Settles O27: what each row sets; a FENCE with no earlier command open settles at once. -/
theorem policyCommands : Obligations.PolicyCommands := by
  unfold Obligations.PolicyCommands
  refine fun s src c => ⟨fun h => ?_, fun h hk => ?_, fun h hm t ht => ?_, fun h hm hl => ?_, fun h hx hk hno => ?_,
    fun x h hx hk hn hl hno he hf => ?_⟩
  · simp only [exec, execKvSpillPolicy, runCmd_runs h, finishOk]
  · simp only [exec, execExpertResidency, runCmd_runs h, hk, inMode, running_boot, beq_iff_eq, if_true, setPolicy, finishOk,
      running_due]
    rfl
  · simp only [exec, execPowerSet, runCmd_runs h, inMode_running, powerNow, ← ht, finishOk]
    rw [if_neg (by simp [inMode, hm])]
  · simp only [exec, execPowerSet, runCmd_runs h, inMode_running, launchCome_running, hl]
    rw [if_pos (by simp [inMode, hm])]
    rfl
  · obtain ⟨x, hx⟩ := Option.isSome_iff_exists.mp hx
    simp only [exec, execFence, runCmd_runs h, ctxAt_running, hx, hk, false_and, if_false]
    rw [if_neg (Bool.eq_false_iff.mp (none_earlier hno)), if_pos hk]
    rfl
  · have hx' : ctxAt (updCmd c.order (fun y => { y with note := x.fenceEpoch + 1 }) (running c s)) c.ctx = some x := hx
    simp only [exec, execFence, runCmd_runs h, ctxAt_running, hx, hk, hn, hl, and_self, if_true, ctx_noted,
      ctxAt_updCtx_same hx', Nat.add_sub_cancel, he, hf]
    rw [if_neg (by exact Bool.eq_false_iff.mp (none_earlier (none_earlier_noted hno))), if_neg (by simp), if_neg (by simp)]
    rfl

end

section
open Sys2Proof.Machine

/-- Settles O28: the rows as O29's lemmas state them; two residue mismatches fence the unit. -/
theorem tileInstructions : Obligations.TileInstructions := by
  unfold Obligations.TileInstructions
  refine fun s e u t r x b => ⟨fun ht hq => ⟨fun y hn hy hd => exec_tileRun ht hn hy hq hd,
      fun n hr hf hs hn => exec_taskRepeat ht hr hq hf hs hn, fun hr hl h1 h0 hs hf => exec_tend ht hr hq hl h1 h0 hs hf⟩,
    fun h hd hq errs => exec_load h hq hd errs, fun h hd hq errs => exec_store h hq hd errs,
    fun h hd => exec_vop h hd, fun h hd => ⟨fun m hm => ?_, fun m hm => exec_mma h hd hm⟩⟩
  simp only [exec, execMma, h, hd]
  rw [if_pos hm]
end

section
/-! PROOFS. The work of the Select and the Tier Engine (O31 to O33). -/
namespace Sys2Proof.Machine

variable {s z : State} {q op : Nat} {k : Queue → Cmd → Lrd → State → State} {x : Queue} {c : Cmd} {d : List Byte}

theorem withLrd_poison (hw : workHead s .se q op = some (x, c)) (hl : loadBytes (c.body 32 8) 512 s = (d, true, z)) :
    withLrd q op s k = .next (faultPoison .se q z) := by
  simp only [withLrd, hw, hl, if_true]

theorem withLrd_defect (hw : workHead s .se q op = some (x, c)) (hl : loadBytes (c.body 32 8) 512 s = (d, false, z))
    (hd : lrdOk z d = false) : withLrd q op s k = .next (faultQueue .se q 9 z) := by
  simp [withLrd, hw, hl, hd]

theorem withLrd_good (hw : workHead s .se q op = some (x, c)) (hl : loadBytes (c.body 32 8) 512 s = (d, false, z))
    (hd : lrdOk z d = true) : withLrd q op s k = .next (k x c d (markWorked .se q z)) := by
  simp [withLrd, hw, hl, hd]

/-- Each of the five routing rows is `withLrd` of its opcode and effect. -/
theorem exec_routing {i : Instr} (h : (i, op, k) ∈ [(Instr.routeSelect q, 0x20, routeSelectEffect),
      (.routePlan q, 0x21, routePlanEffect), (.routeScatter q, 0x22, routeScatterEffect),
      (.routeGather q, 0x23, routeGatherEffect), (.routeCombine q, 0x24, routeCombineEffect)]) :
    exec i s = withLrd q op s k := by
  simp only [List.mem_cons, Prod.mk.injEq, List.not_mem_nil, or_false] at h
  rcases h with ⟨rfl, rfl, rfl⟩ | ⟨rfl, rfl, rfl⟩ | ⟨rfl, rfl, rfl⟩ | ⟨rfl, rfl, rfl⟩ | ⟨rfl, rfl, rfl⟩
  all_goals rfl

end Sys2Proof.Machine
end

section
open Sys2Proof.Machine

/-- Settles O31: each row on the head of its queue. -/
theorem selectEngineWork : Obligations.SelectEngineWork := by
  unfold Obligations.SelectEngineWork
  refine ⟨fun s q x c b n rows bytes z hw hb hn hr hf => ?_, fun s q x c b hw hb rs hrs => ⟨fun h1 => ?_, fun h1 wrote z hf => ?_⟩,
    fun s q op i k hi x c d z hw => ?_, fun s ctx prog g l p h hp hg hc hm hf hl hr => ?_⟩
  · subst hb hn hr
    simp only [exec, execStepPrep, hw, hf, beq_iff_eq]
  · simp only [exec, execSample, hw, hb, h1, hrs, if_true]
  · simp only [exec, execSample, hw, hb, ← hrs, if_neg h1, hf]
  · rw [exec_routing hi]
    exact ⟨withLrd_poison hw, withLrd_defect hw, withLrd_good hw⟩
  · simp only [exec, execFillGroupWrite, hp, hg, Option.bind_some, hc]
    have hm' : g ∉ p.marks := by simpa using hm
    rw [if_neg (by simp [hm', hf, hl, hr])]

/-- Settles O32: each row on the head of its queue, an entry that may issue, a transfer that is done. -/
theorem tierEngineWork : Obligations.TierEngineWork := by
  unfold Obligations.TierEngineWork
  refine ⟨fun s q x c hw sr src dr dst w hs hd hz => ⟨fun h1 => ?_, fun gs z h1 hl => ?_⟩, fun s q x c hw gs z hl => ?_,
    fun s q x c p hw hp => ⟨fun h2 => ?_, fun h2 hs => ?_, fun sc h2 hs => ?_⟩, ?_, ?_⟩
  · subst h1
    simp only [exec, execCopy, hw, hs, hd, ← hz, if_true]
  · subst h1
    simp only [exec, execCopy, hw, hs, hd, ← hz, hl, Bool.false_eq_true, if_false]
  · simp only [exec, execReplicate, hw, hl]
  · simp only [exec, execSchedule, hw, hp, if_pos h2]
  · simp only [exec, execSchedule, hw, hp, if_neg h2, hs]
  · simp only [exec, execSchedule, hw, hp, if_neg h2, hs]
  · intro s ctx prog i k0 p sc e hp hsc hk he hm hf hd hst hle hph hni hh ho ht hev hrw
    simp only [exec, execScheduleIssue, hp, hsc, hk, he]
    rw [if_pos, if_neg, if_pos ho]
    · rcases hrw with h | h <;> simp [h]
    · rw [startOffOf, if_pos ho]
      rcases hev with h | h <;> simp [inMode, hm, hf, hd, hst, hle, hph, hni, hh, ht, h]
  · intro s id ctx prog i served x sc e hst hx hu hr hsc he hsil hf
    simp only [exec, execScheduleTransferDone, hst, hx, hu, hr, hsc, Option.bind_some, he, hsil, hf]
    exact ⟨fun h => by simp [h], fun h => by simp [h]⟩

/-- Settles O33: each row on the head of its queue, a spill or return that is done, a hand-over taken. -/
theorem kvWork : Obligations.KvWork := by
  unfold Obligations.KvWork
  refine ⟨fun s q x c d z hw hl hd => ?_, fun s z q x c p wait hw hp ha => ?_, fun s z q x c p wait sl hw hp hsl ha => ?_,
    fun s ctx c p hst hc hp => ?_, ?_, ?_, fun s dev no lay tok fed pages hn => ?_,
    fun s dev no lay tok fed pages x hn hd hf hpt hl => ?_⟩
  · simp [exec, execKvPoolInit, hw, hl, hd]
  · simp only [exec, execKvAppend, withPool_some _ hw hp, appendEffect, ha]
    cases wait <;> rfl
  · subst hsl
    simp only [exec, execKvGather, withPool_some _ hw hp, gatherEffect, ha]
  · simp [exec, execKvSpill, hst, hc, hp]
  · intro s z ctx d n d' n' slot a v x p hst hx hu hp ho hs hf hpg
    simp [exec, execKvSpillDone, hst, hx, hu, hp, ho, hs, hf, hpg]
  · intro s z y ctx d n a v x p parts hst hx hp hr hs hf hpg hret hany
    simp only [exec, execKvReturnDone, hst, hx, hp, hr, hs, hf, hpg, hret, hany]
    simp
  · simp only [exec, execKvHandover, hn]
    rfl
  · have he : exec (.kvHandover dev no lay tok fed pages) s =
        .next (takePages { dev, stream := no, tokens := tok, fed, pages := pages.zipIdx } s) := by
      simp only [exec, execKvHandover, hn]
      rw [if_neg (by simp [hd, hf, hpt, hl])]
    refine ⟨he, fun f rest z hs => ?_⟩
    rw [he]
    simp only [takePages, hn, hs]

end

section
open Sys2Proof.Machine

/-- Settles O34: the rows of the two weight commands as they run and as they run again. -/
theorem weightLoads : Obligations.WeightLoads := by
  unfold Obligations.WeightLoads
  intro s src c w hw
  refine ⟨fun st d h hr => ?_, fun z h hr hz => ⟨fun h2 => ?_, fun gs y h2 hg hy => ⟨fun hp => ?_, fun i hp => ?_⟩⟩,
    fun st d h hr => ?_, fun h hr => ?_, fun hc ho hp => ?_⟩
  · simp only [exec, execWeightLoad, runCmd_runs h, ← hw, hr]
  · simp only [exec, execWeightLoad, runCmd_runs h, ← hw, hr, ← hz, if_pos h2]
  · simp only [exec, execWeightLoad, runCmd_runs h, ← hw, hr, ← hz, if_neg h2, ← hg, ← hy, hp]
  · simp only [exec, execWeightLoad, runCmd_runs h, ← hw, hr, ← hz, if_neg h2, ← hg, ← hy, hp]
  · simp only [exec, execWeightReplace, runCmd_runs h, ← hw, hr]
  · simp only [exec, execWeightReplace, runCmd_runs h, ← hw, hr]
  · simp only [exec, execWeightReplace, runCmd_again hc ho hp]

/-- Settles O36: the rows of a reload and of a replacement that end. -/
theorem reloadRows : Obligations.ReloadRows := by
  unfold Obligations.ReloadRows
  refine fun s ctx => ⟨fun hs => ⟨?_, ?_⟩, fun k ok z hs hk hr hb hf y hy => ?_,
    fun o z c hs ho hz hc hp hn hw => ⟨fun hsp => ?_, fun d hsp hfe hd => ?_, fun x y hsp hfe hd hx hy => ?_⟩⟩
  · simp [exec, execReloadDone, hs]
  · simp [exec, execReplaceRewriteDone, hs]
  · simp only [exec, execReloadDone, hs, hk, hr, hb, hf, ← hy]
    rfl
  · simp only [exec, execReplaceRewriteDone, hs, ho, ← hz, hc]
    rw [if_neg (by simp), if_neg (by simp [hp, hn, hw]), if_pos hsp]
  · simp only [exec, execReplaceRewriteDone, hs, ho, ← hz, hc, hsp, hfe, hd]
    rw [if_neg (by simp), if_neg (by simp [hp, hn, hw]), if_neg (by simp), if_neg (by simp)]
  · simp only [exec, execReplaceRewriteDone, hs, ho, ← hz, hc, hsp, hfe, hd, ← hx, ← hy]
    rw [if_neg (by simp), if_neg (by simp [hp, hn, hw]), if_neg (by simp), if_neg (by simp)]

end

section
/-! PROOFS. The stacks and the mesh (O38, O39). -/
namespace Sys2Proof.Machine

variable {s : State}

/-- A corrected word of the store counts under the gibibyte of its address (R410). -/
theorem countCorrected_store {a : Nat} (h : placeOf a = .store) :
    countCorrected a s = { s with mem := { s.mem with
      corrected := tabPut s.mem.corrected ((a - 0x20000000000) / 2 ^ 30)
        (tabNat s.mem.corrected ((a - 0x20000000000) / 2 ^ 30) + 1) } } := by
  have ha : a < 0x28000000000 := by
    by_contra hn
    rw [placeOf, if_neg (by omega), if_neg (by omega)] at h
    split at h
    · dsimp only at h
      split at h <;> cases h
    · split at h
      · split at h <;> cases h
      · cases h
  rw [countCorrected, if_pos ha]

theorem belowFall_congr {u : State} {step t : Nat} (h : u.regs = s.regs) : belowFall u step t = belowFall s step t := by
  unfold belowFall thermHyst thermThr thermStep
  rw [h]

/-- A reading of a running stack (R349): its state after it, and record 10 at a crossing into T_CRIT. -/
theorem exec_stackTempReading {stack t step : Nat} {temps : List Nat} {y : State} (hr : stackRuns s stack = true)
    (ht : t = temps.foldl max 0)
    (hs : step = if thermCrit s ≤ t then 3 else max (stackAt s stack).step (targetStep s t))
    (hy : y = updStack stack (fun x => { x with
        step := step, hottest := t, highest := max (stackAt s stack).highest t
        critical := decide (thermCrit s ≤ t), cool := belowFall s step t })
      (setCounter 10 15 stack (max (stackAt s stack).highest t) (bump 10 (11 + (stackAt s stack).step) stack 10000 s))) :
    exec (.stackTempReading stack temps) s = .next (noteReasons
      (if decide (thermCrit s ≤ t) && !(stackAt s stack).critical then
        recordErr { blankErr 10 with unitKind := 2, unit := stack, detail := t } y else y)) := by
  have hb : belowFall (setCounter 10 15 stack (max (stackAt s stack).highest t)
      (bump 10 (11 + (stackAt s stack).step) stack 10000 s)) step t = belowFall s step t := belowFall_congr (by simp)
  simp only [exec, execStackTempReading, hr, ← ht, decide_eq_true_eq, ← hs, Bool.not_true, Bool.false_eq_true, if_false,
    hb, ← hy]

/-- A fourth failure in a row, by the failures of the edge in its last millisecond (R411). -/
theorem meshExhausted_eq {edge : Nat} {gr : List Nat} {w : State} {m : Nat × Nat}
    (hw : w = recordErr { blankErr 13 with detail := edge } (gr.foldl (fun s a => storeGran a poisonGran s) s))
    (hm : m = (tabGet w.mem.meshFails edge).getD (0, w.herd.time)) :
    meshExhausted edge gr s =
      let f := if w.herd.time - m.2 < 1000000 then (m.1 + 1, m.2) else (1, w.herd.time)
      let z : State := { w with mem := { w.mem with meshFails := tabSet w.mem.meshFails edge f } }
      if 16 ≤ f.1 then fatalError { blankErr 31 with detail := edge } z else z := by
  subst hm hw
  rfl

end Sys2Proof.Machine
end

section
open Sys2Proof.Machine

/-- Settles O38: a reading, a fall and the scrub by the branches of their rows. -/
theorem stackRows : Obligations.StackRows := by
  unfold Obligations.StackRows
  refine fun s stack temps t k hk ht => ⟨fun hr => ⟨?_, ?_⟩, fun step y hr hstep hy => ⟨fun hc hcr => ?_, fun hc => ?_⟩,
    fun hr hc => ?_, fun hr hc => ?_, fun a b h => ?_, fun bad hrel hs => ?_, fun a d hrel hs hp hd => ?_⟩
  · simp [exec, execStackTempReading, hr]
  · simp [exec, execStackThrottleFall, hr]
  · subst hk
    rw [exec_stackTempReading hr ht hstep hy, if_pos (by simp [hc, hcr])]
  · subst hk
    rw [exec_stackTempReading hr ht hstep hy, if_neg]
    rcases hc with hc | hc
    · simp [hc]
    · simp [hc]
  · simp [exec, execStackThrottleFall, hr, ← hk, hc]
  · simp [exec, execStackThrottleFall, hr, ← hk, hc]
  · simp only [exec, execStoreScrub, if_pos h]
  · simp only [exec, execStoreScrub, List.foldl_nil]
    rw [if_neg (by simp [hrel, hs])]
  · simp only [exec, execStoreScrub, List.foldl_nil, List.foldl_cons, if_pos hp]
    rw [if_neg (by simp [hrel, hs]), countCorrected_store hp, ← hd]

/-- Settles O39: the tries of an edge, and its failures in a millisecond. -/
theorem meshFlits : Obligations.MeshFlits := by
  unfold Obligations.MeshFlits
  intro s edge data crc gr n hrel hn
  simp only [exec, execMeshFlitReceive, ← hn]
  refine ⟨fun he => by simp [he], fun he hc => ?_, fun he hc hlt => ?_, fun he hc hle w m hw hm => ?_⟩
  · rw [if_neg (by simp [he, hrel]), if_pos hc]
  · rw [if_neg (by simp [he, hrel]), if_neg hc, if_pos (by omega)]
  · rw [if_neg (by simp [he, hrel]), if_neg hc, if_neg (by omega), meshExhausted_eq hw hm]
    refine ⟨fun h1 h2 => ?_, fun h1 h2 => ?_, fun h1 => ?_⟩
    · simp only [if_pos h1]
      rw [if_neg (by omega)]
    · simp only [if_pos h1, if_pos h2]
    · simp only [if_neg (Nat.not_lt.mpr h1)]
      rw [if_neg (by omega)]
end

section
/-! PROOFS. The health of links and the packets of an exchange (O41, O46). -/
namespace Sys2Proof.Machine

variable {s : State} {l lane : Nat}

theorem linkGoesDown_of_inactive (h : (linkOf s l).state ≠ 2) : linkGoesDown l s = s := if_pos h

end Sys2Proof.Machine
end

section
open Sys2Proof.Machine

/-- Settles O41: each row by the state of its link, or of its connector's supply. -/
theorem linkHealth : Obligations.LinkHealth := by
  unfold Obligations.LinkHealth
  rintro s l lane errs k rfl
  refine ⟨fun h2 hd => ⟨fun hl => ?_, fun hl => ?_, fun hr => ?_, fun hr => ?_⟩, fun h => if_pos h,
    fun h => if_neg (by omega), fun lastSeq w h2 hw => ?_, fun lastSeq w y h2 hd hw hy => ?_, rfl,
    fun h2 n => ⟨?_, ?_, ?_, ?_⟩, fun c hr hc => ?_, fun c hc => ?_, fun c => ⟨?_, ?_⟩⟩
  · simp [exec, execLaneLockLoss, h2, hd, hl]
  · simp [exec, execLaneLockLoss, h2, hd, hl]
  · simp [exec, execLaneLockLoss, h2, hd, hr]
  · simp [exec, execLaneLockLoss, h2, hd, hr]
  · simp only [exec, execDegradeMessage, if_pos h2, ← hw]
  · simp only [exec, execRetrainComplete, hd, ← hw, ← hy]
    rw [if_neg (not_not.mpr h2)]
  · simp only [exec, execLinkDown, linkGoesDown_of_inactive h2]
  · simp [exec, execLaneLockLoss, h2]
  · simp [exec, execDegradeMessage, h2]
  · simp only [exec, execRetrainComplete]
    split
    · rfl
    · rw [if_pos h2]
  · simp only [exec, execCableSupplyOverload]
    rw [if_neg (by simp [hc, hr])]
  · simp [exec, execCableSupplyOverload, hc]
  · simp [exec, execCableSupplyRetry]
  · simp [exec, execCableSupplyRetry]

end

section
/-! PROOFS. BLOCK of an exchange (O46): what it takes whole, and when nothing stands in its way. -/
namespace Sys2Proof.Machine

variable {s : State} {p : Packet} {e : Exchange}

theorem blockFit_whole {ra rn : Nat} (hr : e.recvs.getD (Packet.srcIndex p) (0, 0) = (ra, rn)) (ha : ra ≤ p.addr)
    (hn : p.granules.length ≤ rn - (p.addr - ra) / 64) : blockFit e p = p.granules := by
  rw [blockFit, hr]
  dsimp only
  rw [if_pos ha, List.take_of_length_le hn]

theorem blockedAt_none {as : List Nat} {ack : Nat} (h : ∀ a ∈ as, dirAt s a = none) : blockedAt as p ack s = none := by
  have hf : as.find? (fun a => (dirAt s a).isSome) = none := List.find?_eq_none.mpr fun a ha => by simp [h a ha]
  rw [blockedAt, hf]

theorem serveBlock_whole {ra rn : Nat} (ht : targetStatus s p p.addr (64 * p.granules.length) = none)
    (hd : ∀ a ∈ granAddrs p.addr p.granules.length, dirAt s a = none)
    (he : exchangeAt s p.ctx (Packet.key p) (Packet.inst p) = some e)
    (hr : e.recvs.getD (Packet.srcIndex p) (0, 0) = (ra, rn)) (ha : ra ≤ p.addr)
    (hn : p.granules.length ≤ rn - (p.addr - ra) / 64) :
    serveBlock p s = respond p 12 0 [] [] false (noteSeq p.srcDev p.seq none
      (updExchange p.ctx (Packet.key p) (Packet.inst p) (fun e => { e with
        got := tabSet e.got (Packet.srcIndex p) (tabNat e.got (Packet.srcIndex p) + p.granules.length) })
        (putGrans p.addr p.granules (readyAnswered p s)))) := by
  simp only [serveBlock, he, ht, blockFit_whole hr ha hn, blockedAt_none hd]
  rw [if_neg (by omega)]

end Sys2Proof.Machine
end

section
open Sys2Proof.Machine

/-- Settles O46: the four rows of an exchange in progress, by `takePacket_takes`. -/
theorem exchangePackets : Obligations.ExchangePackets := by
  unfold Obligations.ExchangePackets
  rintro s p w hc hd rfl hb
  have hb' : ¬ (exchangeBusy (heardFrom p.srcDev s) = true) := by simp [hb]
  refine ⟨fun ho hdup hst => ⟨fun e he => ?_, fun he hl y hy => ?_⟩, fun e ra rn ho hw hdup ht hdir he hr ha hn => ?_,
    fun e ho hdup he => ?_, fun i hi ho hw hdup => ?_, fun r ctx key inst d ho hs hr hu hop => ?_⟩
  · simp only [exec, execReady, takePacket_takes _ hc ho hd, hdup, hst, he]
    rw [if_neg hb', if_neg (by simp), if_neg (by simp)]
  · simp only [exec, execReady, takePacket_takes _ hc ho hd, hdup, hst, he, ← hy]
    rw [if_neg hb', if_neg (by simp), if_neg (by simp), if_neg (by omega)]
  · simp only [exec, execBlock, takePacket_takes _ hc ho hd, hw, hdup, serveBlock_whole ht hdir he hr ha hn]
    rw [if_neg hb', if_neg (by simp), if_neg (by simp)]
  · simp only [exec, execBlockEnd, takePacket_takes _ hc ho hd, hdup, he]
    rw [if_neg hb', if_neg (by simp)]
  · simp only [List.mem_cons, List.not_mem_nil, or_false] at hi
    rcases hi with rfl | rfl
    · rw [if_pos rfl] at ho
      simp only [exec, execBlock, takePacket_takes _ hc ho hd, hw, hdup]
      rw [if_neg hb', if_neg (by simp), if_pos trivial]
    · rw [if_neg (by simp)] at ho
      simp only [exec, execBlockEnd, takePacket_takes _ hc ho hd, hdup]
      rw [if_neg hb', if_pos trivial]
  · simp only [exec, execBlockAck, takePacket_takes _ hc ho hd, hr, hu]
    rw [if_pos ⟨hop, by omega⟩]

end

section
/-! PROOFS. Power, temperature, the input and the boot (O50 to O53). -/
namespace Sys2Proof.Machine

variable {s : State}

@[simp] theorem inMode_iff {m : Mode} : inMode s m = true ↔ s.boot.mode = m := beq_iff_eq

@[simp] theorem inMode_eq_false_iff {m : Mode} : inMode s m = false ↔ s.boot.mode ≠ m := beq_eq_false_iff_ne

/-- A die of the list at 115 C or above (R442). -/
theorem any_hot_iff {ts : List Nat} : ts.any (fun t => decide (115 ≤ t)) = true ↔ ∃ t ∈ ts, 115 ≤ t := by simp

theorem any_hot_eq_false {ts : List Nat} (h : ∀ t ∈ ts, t < 115) : ts.any (fun t => decide (115 ≤ t)) = false := by
  simpa using h

/-- An edge of FAULT_N shows on the wires and changes nothing else. -/
theorem faultEdge_eq_or {before : State} :
    faultEdge before s = s ∨ faultEdge before s = emit (.faultN (faultLow s)) s := by
  unfold faultEdge
  split
  · exact .inl rfl
  · exact .inr rfl

/-- CONTROL_INTERVAL of a powered module (R429 to R439). -/
theorem exec_controlInterval {v i w n : Nat} {recent : List Nat} {x : State} {y z : Bool} (h : powerRuns s = true)
    (hr : recent = (w :: s.pwr.recent).take 100)
    (hx : x = { s with pwr := { s.pwr with
      pIn := min 65535 w, vIn := min 65535 v, iIn := i, recent := recent,
      capActive := capRule recent (sustainedCap s) s.pwr.capActive, capAlone := capRule recent s.pwr.cap s.pwr.capAlone,
      framePeak := max s.pwr.framePeak w,
      reasons := s.pwr.reasons.map (fun r => if r.active then { r with duration := (r.duration + 1000) % 2 ^ 64 } else r),
      clock := if inHerd s then s.pwr.clock else 0 } })
    (hy : y = ((x.pwr.capAlone && decide (bubbleLaw s.fuse.baseW w s.pwr.n (s.pwr.cap * 100) ≠ 0)) ||
      decide (bubbleLaw s.fuse.baseW w s.pwr.n 780000 ≠ 0)))
    (hz : z = decide (bubbleLaw s.fuse.baseW w s.pwr.n (currentLimit s * v) ≠ 0))
    (hn : n = max (bubbleLaw s.fuse.baseW w s.pwr.n (lowestTarget x v)) (max s.pwr.dieFloor (if s.pwr.forced then 56 else 0))) :
    exec (.controlInterval v i w) s = .next (noteReasons (setReason 2 z (setReason 1 y
      { x with pwr := { x.pwr with n := n, frameCapped := s.pwr.frameCapped || ((y || z) && decide (n ≠ 0)) } }))) := by
  subst hn hz hy hx hr
  simp only [exec, execControlInterval, h, Bool.not_true, Bool.false_eq_true, if_false]
  rfl

/-- DIE_TEMP_READING of a powered module: the readings kept (R442), then the end of the thermal hold where it comes (R467). -/
theorem exec_dieTempReading {ts : List Nat} {hot : Bool} {w : State} (h : powerRuns s = true)
    (hh : hot = ts.any (fun t => decide (115 ≤ t)))
    (hw : w = noteReasons { s with pwr := { s.pwr with
      temps := ts, thermalPending := hot, forced := hot || !s.pwr.alerts.isEmpty, n := if hot then 56 else s.pwr.n } }) :
    exec (.dieTempReading ts) s = .next (
      if inMode w .rom && decide (w.boot.hold = 8) && ts.all (fun t => decide (t + 10 < dieThr w)) then
        beginTraining (faultEdge w { w with boot := { w.boot with thermalHold := false, faultHeld := false } })
      else w) := by
  simp only [exec, execDieTempReading, h, Bool.not_true, Bool.false_eq_true, if_false, ← hh, ← hw]

/-- FLOW_FAIL_N low for at least 10 us (R443, R467). -/
theorem exec_flowFail {ns : Nat} {w : State} (h : 10000 ≤ ns) (hw : w = { s with boot := { s.boot with flowLow := true } }) :
    exec (.flowFail ns) s = .next (
      if inMode s .off then w
      else if inMode s .rom then
        if s.boot.training then
          enterHold 9 { w with mem := { s.mem with stackStates := s.mem.stackStates.map (fun k => { k with selfRefresh := true }) } }
        else w
      else if s.pwr.stopped then w else flowStop w) := by
  subst hw
  simp only [exec, execFlowFail, if_neg (Nat.not_lt.mpr h)]
  rfl

theorem exec_perstN_sure {n : Nat} (h : ¬ (800 ≤ n ∧ n < 1200)) :
    exec (.perstN n) s = .next (if decide (1200 ≤ n) && !s.boot.perstLow then
      resetAll 1 { s with boot := { s.boot with perstLow := true, lastReset := 1 } } else s) := by
  simp only [exec, execPerstN, if_neg h]

/-- Between 0.8 us and 1.2 us PERST_N may be taken or not: a free choice decides (R428). -/
theorem exec_perstN_free {n : Nat} (h : 800 ≤ n ∧ n < 1200) :
    exec (.perstN n) s = .next (if Config.freeBool s.free && !s.boot.perstLow then
      resetAll 1 { s with free := s.free + 1, boot := { s.boot with perstLow := true, lastReset := 1 } }
      else { s with free := s.free + 1 }) := by
  simp only [exec, execPerstN, if_pos h, takeBool]

/-- What a module reset leaves (R421, R426). -/
theorem resetAll_leaves {c : Nat} (h : s.boot.mode ≠ .off) :
    ∃ t, exec (.moduleReset c) s = .next t ∧ t.boot.mode = .rom ∧ t.boot.hold = 0 ∧ t.contexts = [] ∧
      t.cmds = [] ∧ t.streams = [] ∧ t.eng.queues = [] ∧ t.mem = MemState.reset ∧ t.regs = Regs.reset ∧ t.host = { s.host with held := [] } ∧
      t.fuse = s.fuse ∧ t.boot.straps = s.boot.straps ∧ t.errs.records = s.errs.records.take 64 ∧
      (s.boot.perstLow = false → t.boot.lastReset = c ∧ t.boot.released = 2) ∧ (s.boot.perstLow = true → t.boot.released = 0) := by
  refine ⟨_, rfl, ?_⟩
  rw [resetAll, if_neg (by simpa using h)]
  have hb : s.boot.perstLow = false → (resetBoot c s.boot).lastReset = c ∧ (resetBoot c s.boot).released = 2 := by
    intro hp
    simp [resetBoot, hp]
  have hl : s.boot.perstLow = true → (resetBoot c s.boot).released = 0 := by
    intro hp
    simp [resetBoot, hp]
  obtain he | he := faultEdge_eq_or (before := s) (s := { s with
      boot := resetBoot c s.boot, regs := Regs.reset, fns := List.replicate 17 FnState.reset, cmds := []
      host := { s.host with held := [] }
      contexts := [], streams := [], slotUses := [], due := []
      eng := { queues := [], tasks := [], fenced := [], held := [], events := [] }
      mem := MemState.reset, links := List.replicate 64 Link.reset, fab := Fabric.reset, herd := Herd.reset
      errs := resetErrors s.errs, pwr := resetPower (c == 3) s.pwr, mgt := Mgt.reset, counters := []
      tally := Tally.reset })
  all_goals
    rw [he]
    exact ⟨rfl, rfl, rfl, rfl, rfl, rfl, rfl, rfl, rfl, rfl, rfl, rfl, hb, hl⟩

theorem exec_domainRelease (h : s.boot.mode ≠ .off) (h2 : 2 ≤ s.boot.released) (hl : s.boot.released < releaseLimit s) :
    exec .domainRelease s = .next (faultEdge s { s with boot := { s.boot with
      released := s.boot.released + 1
      faultHeld := if s.boot.released + 1 = 9 then s.boot.thermalHold else s.boot.faultHeld } }) := by
  simp only [exec, execDomainRelease]
  rw [if_neg (by simp [h]; omega)]

/-- The checks of the ROM when they are due (R463 to R466). -/
theorem exec_romChecks {a b : Straps} {ok : Bool} {dg : List Byte} {w : State}
    (hw : w = (if romHold s.fuse a b ok dg = 0 ∨ 4 ≤ romHold s.fuse a b ok dg
      then { s with boot := { s.boot with straps := b } } else s))
    (hm : s.boot.mode = .rom) (hr : s.boot.released = 9) (hh : s.boot.hold = 0) (ht : s.boot.training = false) :
    exec (.romChecks a b ok dg) s = .next (if romHold s.fuse a b ok dg ≠ 0 then enterHold (romHold s.fuse a b ok dg) w
      else if w.boot.thermalHold then enterHold 8 w else beginTraining w) := by
  simp only [exec, execRomChecks]
  rw [if_neg (by simp [hm, hr, hh, ht]), ← hw]

theorem exec_trainingComplete {r : TrainReport} (hm : s.boot.mode = .rom) (ht : s.boot.training = true) :
    exec (.trainingComplete r) s = .next (
      if r.arrayBad then enterHold 7 s
      else
        let s := r.badChannels.foldl failChannel (r.badCores.foldl fenceBad s)
        let s := r.spares.foldl (fun s e =>
          updStack (e.1 / 256) (fun k => { k with spares := k.spares ++ [(e.1 % 256, e.2)] }) s) s
        let s := { s with links := s.links.map (fun k => { k with state := 4 }) }
        let s := r.links.foldl (fun s r => identify r s) s
        breakSpan { s with boot := { s.boot with mode := .trained, training := false, hold := 0, ready := true } }) := by
  simp only [exec, execTrainingComplete]
  rw [if_neg (by simp [hm, ht])]

end Sys2Proof.Machine
end

section
open Sys2Proof.Machine

/-- Settles O50: the control interval, the brake, the input warning and the regulators' alerts. -/
theorem powerRows : Obligations.PowerRows := by
  unfold Obligations.PowerRows
  intro s
  refine ⟨?_, fun _ _ _ _ _ _ _ _ h hr hx hy hz hn => exec_controlInterval h hr hx hy hz hn, ?_, ?_, ?_, ?_, ?_⟩
  · intro v i w h
    simp [exec, execControlInterval, h]
  · intro ns hm
    refine ⟨fun h => ?_, fun h => ?_, ?_⟩
    · have hn : ¬ ns < 1000 := by omega
      simp [exec, execBrakeN, inMode, hm, hn]
    · simp [exec, execBrakeN, h]
    · simp [exec, execBrakeN, inMode, hm]
  · intro v hm
    refine ⟨fun h => ?_, fun h => ?_⟩
    · simp [exec, execInputUv, inMode, hm, Nat.not_le.mpr h]
    · simp [exec, execInputUv, h]
  · intro v
    exact ⟨fun h => by simp [exec, execInputUvClear, h], fun h => by simp [exec, execInputUvClear, Nat.not_lt.mpr h]⟩
  · intro r hm
    simp [exec, execVrAlert, inMode, hm]
  · rintro r a rfl
    rfl

/-- Settles O51: the readings of the dies, the thermal reset and the coolant-flow stop. -/
theorem thermalRows : Obligations.ThermalRows := by
  unfold Obligations.ThermalRows
  intro s
  refine ⟨?_, ?_, ?_, ?_, ?_, ?_⟩
  · intro ts hot w hp hh hw
    have hrow := exec_dieTempReading hp hh hw
    refine ⟨fun hm hd ht => ?_, fun hno => ?_⟩
    · rw [hrow, if_pos (by
        simp only [Bool.and_eq_true, inMode_iff, decide_eq_true_eq, List.all_eq_true]
        exact ⟨⟨hm, hd⟩, ht⟩)]
    · rw [hrow, if_neg]
      intro hc
      simp only [Bool.and_eq_true, inMode_iff, decide_eq_true_eq, List.all_eq_true] at hc
      obtain ⟨⟨hm, hd⟩, ht⟩ := hc
      obtain h | h | ⟨t, hmem, hge⟩ := hno
      · exact h hm
      · exact h hd
      · have := ht t hmem
        omega
  · intro hp ht hhot
    simp only [exec, execThermalReset, hp, ht, any_hot_iff.mpr hhot, Bool.and_self, if_true]
  · rintro (h | h | h)
    · simp only [exec, execThermalReset, h, Bool.false_and, Bool.false_eq_true, if_false]
    · simp only [exec, execThermalReset, h, Bool.and_false, Bool.false_and, Bool.false_eq_true, if_false]
    · simp only [exec, execThermalReset, any_hot_eq_false h, Bool.and_false, Bool.false_eq_true, if_false]
  · intro ns h
    simp only [exec, execFlowFail, if_pos h]
  · intro ns w hns hw
    have hrow := exec_flowFail hns hw
    refine ⟨fun hm => ?_, fun hm ht => ?_, fun hm ht => ?_, fun hm ho hst => ?_, fun hm ho hst => ?_⟩
    · simp [hrow, inMode, hm]
    · simp [hrow, inMode, hm, ht]
    · simp [hrow, inMode, hm, ht]
    · simp [hrow, inMode, hm, ho, hst]
    · simp [hrow, inMode, hm, ho, hst]
  · rintro w rfl
    refine ⟨fun hm hh => ?_, fun h => ?_⟩
    · simp [exec, execFlowHoldEnd, inMode, hm, hh]
    · simp only [exec, execFlowHoldEnd]
      rw [if_neg]
      simp [inMode]
      tauto

/-- Settles O52: loss and return of the input, PERST_N, the module reset and the release of the domains. -/
theorem inputRows : Obligations.InputRows := by
  unfold Obligations.InputRows
  intro s
  refine ⟨?_, ?_, ?_, ?_, ?_, ?_, ?_, ?_, ?_, ?_, ?_, ?_, fun _ => resetAll_leaves, ?_, ?_⟩
  · intro v h
    simp [exec, execInputLockout, execInputQualified, h]
  · intro v h hr
    refine ⟨?_, rfl, rfl, rfl, rfl, rfl⟩
    simp only [exec, execInputLockout, if_neg (Nat.not_lt.mpr h), if_pos hr]
  · intro v hlo hhi
    simp only [exec, execInputLockout]
    rw [if_neg (by omega), if_neg (by omega)]
  · intro v hm hlo hhi
    simp only [exec, execInputQualified]
    rw [if_neg (by omega), if_pos (by simp [hm, hlo, hhi])]
  · intro v h hno
    simp only [exec, execInputQualified]
    rw [if_neg (by omega), if_neg]
    simp only [Bool.and_eq_true, inMode_iff, decide_eq_true_eq]
    rintro ⟨⟨hm, hlo⟩, hhi⟩
    obtain h | h | h := hno
    · exact h hm
    · omega
    · omega
  · intro hm hi
    simp [exec, execRailsUp, inMode, hm, hi]
  · rintro (h | h)
    · simp [exec, execRailsUp, inMode, h]
    · simp [exec, execRailsUp, h]
  · intro n h hp
    rw [exec_perstN_sure (by omega), if_pos (by simp [h, hp])]
  · intro n h
    rw [exec_perstN_sure (by omega), if_neg (by simp; omega)]
  · intro n hlo hhi
    rw [exec_perstN_free ⟨hlo, hhi⟩]
    refine ⟨_, rfl, ?_⟩
    split
    · exact .inr rfl
    · exact .inl rfl
  · intro h
    simp [exec, execPerstNRelease, h]
  · intro c h
    simp [exec, execModuleReset, resetAll, inMode, h]
  · rintro n hm h2 hl rfl
    exact exec_domainRelease hm h2 hl
  · intro h
    simp only [exec, execDomainRelease]
    rw [if_pos (by simpa [or_assoc] using h)]

/-- Settles O53: the checks of the ROM in their order and what a complete training leaves. -/
theorem bootRows : Obligations.BootRows := by
  unfold Obligations.BootRows
  intro s a b ok dg h w hh hw
  subst hh
  have ht : w.boot.thermalHold = s.boot.thermalHold := by
    rw [hw]
    split <;> rfl
  refine ⟨fun hm hr h0 htr => ?_, ?_, ?_, ?_, ?_, ?_, fun r hm htr => ?_⟩
  · have hrow := exec_romChecks hw hm hr h0 htr
    refine ⟨fun hne => ?_, fun he hth => ?_, fun he hth => ?_⟩
    · rw [hrow, if_pos hne]
    · rw [hrow, if_neg (by simp [he]), if_pos (by rw [ht, hth])]
    · rw [hrow, if_neg (by simp [he]), if_neg (by simp [ht, hth])]
  · intro hok
    simp [romHold, hok]
  · intro hok hd
    simp [romHold, hok, hd]
  · intro hok hd hab
    simp [romHold, hok, hd, hab]
  · intro hok hd hab hbell hls hrole hsplit
    simp [romHold, hok, hd, hab, hbell, hls, hrole, hsplit]
  · intro hno
    simp only [exec, execRomChecks]
    rw [if_pos (by simpa [inMode, or_assoc] using hno)]
  · have hrow := exec_trainingComplete (r := r) hm htr
    refine ⟨fun hb => ?_, ?_⟩
    · rw [hrow, if_pos hb]
    · rintro x y z u hb rfl rfl rfl rfl
      rw [hrow, if_neg (by simp [hb])]

end

section
/-! PROOFS. The messages of the herd and its guard points (O2 to O6). A row reads its message by `receive`: what an accepted
one leaves is the state the row goes on from. -/
namespace Sys2Proof.Machine

variable {s : State}

/-! ### The counter moved on: only time and fraction change -/

theorem advanceTo_eq (t : Nat) : ∃ a b, advanceTo t s = updHerd (fun h => { h with time := a, frac := b }) s ∧ s.herd.time ≤ a := by
  unfold advanceTo
  split
  · exact ⟨t, 0, rfl, by omega⟩
  · exact ⟨s.herd.time, s.herd.frac, rfl, le_rfl⟩

theorem time_le_advanceTo (t : Nat) : s.herd.time ≤ (advanceTo t s).herd.time := by
  obtain ⟨a, b, he, hle⟩ := advanceTo_eq (s := s) t
  rw [he]
  exact hle

/-- A decision looks at the requests and decisions of the herd, which the counter's move leaves. -/
theorem decideWindow_advanceTo (k t : Nat) : decideWindow k (advanceTo t s) =
    if (windowDecided s.herd k s.herd.s).isSome then advanceTo t s
    else if (windowRecords s.herd k s.herd.s).isEmpty then noteDecision k s.herd.s false (advanceTo t s)
    else if s.herd.slipMax ≤ slipsOf s.herd k then
      noteDecision k s.herd.s false (bump 1 10 0 (windowRecords s.herd k s.herd.s).length (advanceTo t s))
    else if s.herd.isMaster then broadcastSlip k 0 (windowRecords s.herd k s.herd.s) (advanceTo t s)
    else updHerd (fun h => { h with decided := (k, s.herd.s, true) :: h.decided }) (advanceTo t s) := by
  obtain ⟨a, b, he, -⟩ := advanceTo_eq (s := s) t
  rw [he]
  rfl

/-! ### What an accepted message leads to -/

/-- An accepted SYNC at a module that is not master takes its sender for master or has no further effect (R32, R57). -/
theorem exec_sync {m : HerdMsg} {w v : State} {first fresh : Bool} (h : receive 1 m s = (true, w)) (hm : w.herd.isMaster = false)
    (hf : first = !w.herd.heard) (hr : fresh = (first || decide (w.herd.epoch < m.epoch) || w.herd.masterDev == devOf w))
    (hv : v = if fresh then adoptMaster m.srcDev m.epoch w else w) :
    exec (.sync m) s = .next (if v.herd.masterDev ≠ m.srcDev then v else
      let y := updHerd (fun h => { h with heard := true, lastOrigin := m.originTs, interval := msgField m 57 1
                                          deputyDev := msgField m 58 2, isDeputy := msgField m 58 2 == devOf v }) (beginInterval v)
      let x := if y.herd.locked = false ∧ y.herd.steppedSync = false
        then updHerd (fun h => { h with steppedSync := true, lockRun := 0 }) (stepTo (msgSent m) y) else y
      match servo (msgSent m) (time256 x) x with
      | (some theta, z) => herdTimeFault theta z
      | (none, z) => joinWhenLocked (sweep (delayAfterSync (msgSent m) (time256 x)
          (updHerd (fun h => { h with lastT1 := msgSent m, lastT2 := time256 x }) (takeSchedule m first fresh z))))) := by
  have hvm : v.herd.isMaster = false := by
    rw [hv]
    split
    · rfl
    · exact hm
  simp only [exec, execSync, h, hm, takeSync, ← hf, ← hr, ← hv, hvm, Bool.not_false, Bool.and_self, if_true, Bool.false_or,
    bne_iff_ne, Bool.and_eq_true, Bool.not_eq_true'] <;> split <;> rfl

/-- The sending of bytes on a link leaves the herd's state and both memories. -/
def behindLinks (s : State) : Herd × MemState × HostMem := (s.herd, s.mem, s.host)

theorem behindLinks_putFlit (l t q : Nat) (p : List Byte) : behindLinks (putFlit l t q p s) = behindLinks s := by
  unfold putFlit
  dsimp only
  split <;> rfl

theorem behindLinks_sendPiece (l i : Nat) : behindLinks (sendPiece l i s) = behindLinks s := by
  unfold sendPiece
  dsimp only
  split
  · rfl
  · rw [behindLinks_putFlit]
    rfl

theorem behindLinks_drainSome (n l : Nat) : behindLinks (drainSome n l s) = behindLinks s := by
  induction n generalizing s with
  | zero => rfl
  | succ n ih =>
    unfold drainSome
    split
    · rw [ih, behindLinks_sendPiece]
    · rfl

theorem behindLinks_sendBytes (l v : Nat) (g a : Bool) (b : List Byte) : behindLinks (sendBytes l v g a b s) = behindLinks s := by
  unfold sendBytes
  dsimp only
  split
  · rfl
  · rw [drainWaiting, behindLinks_drainSome]
    rfl

theorem behindLinks_handHerd (d : Nat) (m : HerdMsg) : behindLinks (handHerd d m s) = behindLinks s := by
  unfold handHerd
  dsimp only
  split
  · rw [behindLinks_sendBytes]
    rfl
  · rfl

/-- A broadcast of the herd takes the next sequence number, and nothing else of the herd's state or the memories. -/
theorem behindLinks_broadcastHerd (ds : List Nat) (type : Nat) (body : List Byte) :
    ∃ seqs, behindLinks (broadcastHerd ds type body s) = ({ s.herd with seqOut := seqs }, s.mem, s.host) :=
  ⟨_, foldl_keeps behindLinks (fun _ _ => behindLinks_handHerd ..) ds _⟩

/-- Noting the time of a broadcast changes only the list of those times. -/
theorem behindLinks_timeBroadcast :
    ∃ times, behindLinks (timeBroadcast s) = ({ s.herd with sendTimes := times }, s.mem, s.host) := ⟨_, rfl⟩

theorem behindLinks_timed_broadcast (ds : List Nat) (type : Nat) (body : List Byte) : ∃ seqs times,
    behindLinks (timeBroadcast (broadcastHerd ds type body s)) =
      ({ s.herd with seqOut := seqs, sendTimes := times }, s.mem, s.host) := by
  obtain ⟨seqs, hb⟩ := behindLinks_broadcastHerd (s := s) ds type body
  obtain ⟨times, ht⟩ := behindLinks_timeBroadcast (s := broadcastHerd ds type body s)
  obtain ⟨hherd, hrest⟩ := Prod.ext_iff.mp hb
  obtain ⟨hmem, hhost⟩ := Prod.ext_iff.mp hrest
  have hherd' : (broadcastHerd ds type body s).herd = { s.herd with seqOut := seqs } := hherd
  have hmem' : (broadcastHerd ds type body s).mem = s.mem := hmem
  have hhost' : (broadcastHerd ds type body s).host = s.host := hhost
  rw [hherd', hmem', hhost'] at ht
  exact ⟨seqs, times, ht⟩

/-- MASTER_LOST where the master is lost: the deputy takes over (R56). -/
theorem exec_masterLost {n : Nat} {u w : State} (hi : inHerd s = true) (hd : s.herd.isDeputy = true)
    (hl : (masterUnreachable s || beforeTick (missedBy s) s) = true)
    (hu : u = if masterUnreachable s then s else advanceTo (missedBy s) s) (hn : n = 8000 * 2 ^ intervalReg u)
    (hw : w = updHerd (fun h => { h with
      epoch := (h.epoch + 1) % 2 ^ 32, isMaster := true, isDeputy := false, deputyDev := 0xFFFF, masterDev := devOf u,
      setGuard := h.guard, bcastNs := none, holdover := false, samples := [], nextSync := (h.time / n + 1) * n }) u) :
    exec .masterLost s = .next (timeBroadcast (broadcastHerd (herdOthers w) 6
      (natLe 8 u.herd.lastOrigin ++ natLe 2 u.herd.masterDev) w)) := by
  simp only [exec, execMasterLost, hi, hd, hl, Bool.not_true, Bool.or_self, Bool.false_eq_true, if_false, ← hu, ← hn, ← hw]

/-- The next multiple of an interval lies after the time. -/
theorem lt_next_multiple (t n : Nat) (h : 0 < n) : t < (t / n + 1) * n := by
  rw [Nat.mul_comm]
  exact Nat.lt_mul_div_succ t h

/-- The state of a module that has taken over, whatever its broadcast was (R56). -/
def TakenOver (s : State) (z : State) : Prop :=
  z.herd.epoch = (s.herd.epoch + 1) % 2 ^ 32 ∧ z.herd.isMaster = true ∧ z.herd.isDeputy = false ∧ z.herd.masterDev = devOf s ∧
    z.herd.deputyDev = 0xFFFF ∧ z.herd.setGuard = s.herd.guard ∧ z.herd.holdover = false ∧
    s.herd.time < z.herd.nextSync ∧ z.herd.nextSync % (8000 * 2 ^ intervalReg s) = 0 ∧ z.mem = s.mem ∧ z.host = s.host

theorem takenOver_of_behindLinks {x z : State} (h : TakenOver s x) {seqs : List (Nat × Nat)} {times : List Nat}
    (hz : behindLinks z = ({ x.herd with seqOut := seqs, sendTimes := times }, x.mem, x.host)) : TakenOver s z := by
  obtain ⟨hherd, hrest⟩ := Prod.ext_iff.mp hz
  obtain ⟨hmem, hhost⟩ := Prod.ext_iff.mp hrest
  have hherd' : z.herd = { x.herd with seqOut := seqs, sendTimes := times } := hherd
  have hmem' : z.mem = x.mem := hmem
  have hhost' : z.host = x.host := hhost
  unfold TakenOver
  rw [hherd', hmem', hhost']
  exact h

/-- The counter's move before the takeover is not seen in what it leaves. -/
theorem takenOver_master {u w : State} {n : Nat} (hu : u = s ∨ ∃ t, u = advanceTo t s) (hn : n = 8000 * 2 ^ intervalReg u)
    (hw : w = updHerd (fun h => { h with
      epoch := (h.epoch + 1) % 2 ^ 32, isMaster := true, isDeputy := false, deputyDev := 0xFFFF, masterDev := devOf u,
      setGuard := h.guard, bcastNs := none, holdover := false, samples := [], nextSync := (h.time / n + 1) * n }) u) :
    TakenOver s w := by
  obtain ⟨a, b, rfl, hle⟩ : ∃ a b, u = updHerd (fun h => { h with time := a, frac := b }) s ∧ s.herd.time ≤ a := by
    obtain hs | ⟨t, rfl⟩ := hu
    · exact ⟨s.herd.time, s.herd.frac, hs, le_rfl⟩
    · exact advanceTo_eq t
  have hn' : n = 8000 * 2 ^ intervalReg s := hn
  have hpos : 0 < n := by
    rw [hn']
    positivity
  subst hw
  refine ⟨rfl, rfl, rfl, rfl, rfl, rfl, rfl, hle.trans_lt (lt_next_multiple a n hpos), ?_, rfl, rfl⟩
  rw [← hn']
  exact Nat.mul_mod_left ..

end Sys2Proof.Machine
end

section
open Sys2Proof.Machine

/-- Settles O2: the branches of an accepted SYNC. -/
theorem syncRow : Obligations.SyncRow := by
  unfold Obligations.SyncRow
  refine fun s m w h => ⟨fun hm => ?_, fun first fresh v y hm hf hr hv => ?_⟩
  · simp only [exec, execSync, h, hm, Bool.not_true, Bool.and_false, Bool.false_eq_true, if_false]
  · have hrow := exec_sync h hm hf hr hv
    refine ⟨fun hne => ?_, ?_⟩
    · rw [hrow, if_pos hne]
    · rintro he rfl x hx
      rw [hrow, if_neg (not_not.mpr he)]
      dsimp only
      rw [← hx]
      exact ⟨fun theta z hz => by rw [hz], fun z hz => by rw [hz]⟩

/-- Settles O3: the branches of the two delay messages. -/
theorem delayRows : Obligations.DelayRows := by
  unfold Obligations.DelayRows
  refine fun s m w => ⟨fun x h hx => ?_, fun h hno => ?_, fun t3 a b t4 v h hp h4 hv => ?_⟩
  · simp only [exec, execDelayReq, h, Bool.not_true, Bool.false_eq_true, if_false, ← hx]
  · simp only [exec, execDelayResp, h, Bool.not_true, Bool.false_eq_true, if_false]
    cases hd : tabGet w.herd.delayOut m.srcDev with
    | none => rfl
    | some p =>
      have hne : msgField m 36 4 ≠ p.1 := (hno p hd).symm
      exact congrArg _ (if_pos hne)
  · simp only [exec, execDelayResp, h, hp, Bool.not_true, Bool.false_eq_true, if_false, ne_eq, not_true_eq_false, ← h4, ← hv]
    refine ⟨fun hs hm => ?_, fun hno => ?_⟩
    · rw [if_pos ⟨hs, hm⟩]
    · rw [if_neg]
      rintro ⟨hs, hm⟩
      obtain hn | hn := hno
      · exact hn hs
      · rw [hm] at hn
        cases hn

/-- Settles O4: requests, slips and the decision of a window, which looks at nothing the counter's move changes. -/
theorem slipRows : Obligations.SlipRows := by
  unfold Obligations.SlipRows
  intro s m w
  refine ⟨fun h hr => ?_, fun h hm hd => ?_, fun h he => ?_, fun h he => ?_, ?_, ?_⟩
  · have hr' : (w.herd.isMaster || w.herd.isDeputy) = true := by simpa using hr
    simp only [exec, execSlipReq, h, hr', Bool.not_true, Bool.or_self, Bool.false_eq_true, if_false]
  · simp only [exec, execSlipReq, h, hm, hd, Bool.or_self, Bool.not_false, Bool.or_true, if_true]
  · simp only [exec, execSlip, h]
    rw [if_pos (.inr he)]
  · simp only [exec, execSlip, h]
    rw [if_neg (by simp [he]), takeSlip]
    exact ⟨fun hle => by rw [if_pos hle], fun hlt => by rw [if_neg (Nat.not_le.mpr hlt)]⟩
  · rintro k z rs hm hr rfl rfl rfl
    have hr' : (s.herd.isMaster || s.herd.isDeputy) = true := by simpa using hr
    simp only [exec, execGuardWindowOpen, decideWindow_advanceTo]
    rw [if_neg (by simp [inMode, hm, hr'])]
    refine ⟨fun h => ?_, fun h he => ?_, fun h he hlt => ⟨fun hM => ?_, fun hM => ?_⟩, fun h he hle => ?_⟩
    · rw [if_pos h]
    · simp [h, he]
    · simp [h, he, hM, Nat.not_le.mpr hlt]
    · simp [h, he, hM, Nat.not_le.mpr hlt]
    · simp [h, he, hle]
  · rintro k y z rs hm hd rfl rfl rfl rfl
    simp only [exec, execBackupBroadcast]
    rw [if_neg (by simp [inMode, hm, hd]), backupSlip]
    refine ⟨fun h => ?_, fun h hlt => ?_⟩
    · rw [if_pos (by simpa using h)]
    · rw [if_neg (by simpa [h] using hlt)]

/-- Settles O5: where a guard point comes the queues behind it request a slip, elsewhere nothing happens. -/
theorem guardRows : Obligations.GuardRows := by
  unfold Obligations.GuardRows
  rintro s k z rfl rfl
  refine ⟨fun h => ?_, fun h => ?_, ?_, ?_, ?_⟩
  · have h' : (!inMode s .ready || !s.herd.inFrame) = true := by simpa [inMode] using h
    simp only [exec, execGuardPoint, execFallbackCheck, h', Bool.true_or, if_true, and_self]
  · simp only [exec, execFallbackCheck, h, Bool.not_false, Bool.or_true, if_true]
  · rintro hm hf w rfl
    simp only [exec, execGuardPoint]
    rw [if_neg (by simp [inMode, hm, hf])]
  · rintro hm hf hb w rfl
    simp only [exec, execFallbackCheck]
    rw [if_neg (by simp [inMode, hm, hf, hb])]
  · rintro e t rfl
    rfl

/-- Settles O6: the master's work, its replacement and the end of the holdover. -/
theorem masterRows : Obligations.MasterRows := by
  unfold Obligations.MasterRows
  intro s m w
  refine ⟨?_, ?_, ?_, ?_, fun n u hi hd hl hu hn hw => exec_masterLost hi hd hl hu hn hw, ?_, ?_, ?_⟩
  · rintro hi hm rfl
    simp only [exec, execSyncInterval, hi, hm, Bool.not_true, Bool.or_self, Bool.false_eq_true, if_false]
  · intro h hm
    simp only [exec, execTakeover, h, hm]
    refine ⟨fun hlt => ?_, fun hle hne => ?_⟩
    · simp [hlt]
    · simp [Nat.not_lt.mpr hle, hne]
  · intro h hm
    simp only [exec, execFrameChange, h, hm]
    refine ⟨fun hs hlt => ?_, fun hno => ?_⟩
    · simp [hs, Nat.not_le.mpr hlt]
    · rw [if_pos (.inr (.inr hno))]
  · intro z hi hd hl hz
    rw [exec_masterLost hi hd hl rfl rfl rfl] at hz
    obtain rfl := Host.Outcome.next.inj hz
    obtain ⟨seqs, times, hb⟩ := behindLinks_timed_broadcast _ 6 _
    refine takenOver_of_behindLinks (takenOver_master ?_ rfl rfl) hb
    split
    · exact .inl rfl
    · exact .inr ⟨_, rfl⟩
  · intro h
    simp only [exec, execMasterLost, h, Bool.not_false, Bool.or_true, if_true]
  · intro hm hM hb
    simp only [exec, execHoldoverExpiry]
    rw [if_pos (by simp [inMode, hm, hM, hb])]
  · intro h
    simp only [exec, execHoldoverExpiry]
    rw [if_neg]
    simp only [Bool.and_eq_true, beq_iff_eq, inMode, Bool.not_eq_true']
    rintro ⟨⟨h1, h2⟩, h3⟩
    simp_all

end

section
/-! PROOFS. Joining the herd, the tick and the herd commands (O7 to O9). -/
namespace Sys2Proof.Machine

variable {s : State} {c : FleosCmd} {src : CmdSrc}

/-- An accepted JOIN_ACK of the master's at a candidate that has asked goes by its RESULT (R475). -/
theorem exec_joinAck {m : HerdMsg} {w : State} (h : receive 9 m s = (true, w)) (hm : w.boot.mode = .herd)
    (hj : w.herd.joinSent ≠ none) (ha : w.herd.admitted = false) (hs : m.srcDev = w.herd.masterDev) :
    exec (.joinAck m) s = .next (match msgField m 24 1 with
      | 0 => updHerd (fun h => { h with admitted := true }) w
      | 1 =>
        if w.herd.rejoining then postEvent 0 8 0 0xFFFF (natLe 1 2) (backToTrained 0 0 w) else backToTrained 3 (0x700 + 24) w
      | 2 => updHerd (fun h => { h with joinSent := none }) w
      | _ => bump 1 22 0 1 w) := by
  simp only [exec, execJoinAck, h]
  rw [if_neg (by simp [hm, hj, ha, hs])] <;> rfl

/-- A tick that may come: the window's work, and where it slips nothing (R26, R54). -/
theorem exec_tick {st : List HostStore} {w : State} (hw : w = hostStores st s)
    (h : w.boot.mode = .ready ∨ (w.boot.mode = .herd ∧ w.herd.heard = true)) : exec (.tick st) s = .next (doTick w) := by
  simp only [exec, execTick, ← hw]
  rw [if_pos (by simpa using h)]

theorem windowWork_eq {k : Nat} : windowWork k s =
    (if s.boot.mode ≠ .ready then s
      else if s.herd.isMaster then decideWindow k (advanceTo (tickTime s.herd k - guardFor s.herd k) s)
      else if s.herd.isDeputy ∧ backupNs s ≤ guardFor s.herd k then backupSlip k s else s) := by
  unfold windowWork
  simp [inMode]

/-- A tick that occurs, from the state after its pulse and an admission (R406 to R408, R476). -/
theorem doTick_occurs {k : Nat} {u v : State} (hk : k = nextTick s) (hs : (windowWork k s).herd.s = s.herd.s)
    (hu : u = emit (.syncPulse k) (advanceTo (tickTime (windowWork k s).herd k) (windowWork k s)))
    (hv : v = if u.herd.admitted then enterReady u else u) :
    doTick s = if inMode v .ready then
        if v.herd.diverged then tickAgain k true (updHerd (fun h => { h with diverged := false }) v) else tickWork k v
      else
        let y := tickSchedule k (updHerd (fun h => { h with frame := k }) v)
        if portUp y then readAllDoorbells y else y := by
  unfold doTick
  simp only [← hk]
  rw [if_neg (not_not.mpr hs), ← hu, ← hv]

/-- What one command asks of the host's memory is unread where it is bad or its stream is Insecure (R501). -/
theorem hostUnread_of_turn (h : turnOf s src 0x11 c) (hb : hostBad s (fieldAt c.desc 24 8) (fieldAt c.desc 32 4) = false) :
    hostUnread s (fieldAt c.desc 24 8) (fieldAt c.desc 32 4) = false := by
  obtain ⟨-, hop, -, -, -, hw⟩ := h
  have hi : insecureAt s (fieldAt c.desc 24 8) = false := by
    simp only [hostWaits, hop, Bool.or_eq_false_iff] at hw
    simpa using hw.1.1
  rw [hostUnread, hi, hb]
  rfl

/-- The worst defect of a readable plan decides the check of the structure named (R472). -/
theorem checkRun_plan {off r : Nat} (h : turnOf s src 0x11 c) (hb : hostBad s (fieldAt c.desc 24 8) (fieldAt c.desc 32 4) = false)
    (hd : worstDefect (planDefects s (hostBytes s (fieldAt c.desc 24 8) (fieldAt c.desc 32 4))) = some (off, r)) :
    checkRun s c = some (3, r * 256 + 24, off) := by
  have hop : fieldAt c.desc 0 1 = 0x11 := h.2.1
  have hn : namedDefect s c.desc = some (24, r * 256, off) := by
    simp [namedDefect, hop, hostUnread_of_turn h hb, hd]
  simp [checkRun, runDefect, hop, hn]

theorem planDiffs_running (p : Plan) : planDiffs (running c s) p = planDiffs s p := rfl

end Sys2Proof.Machine
end

section
open Sys2Proof.Machine

/-- Settles O7: the master's answers and the candidate's. -/
theorem joinRows : Obligations.JoinRows := by
  unfold Obligations.JoinRows
  refine fun s m w => ⟨fun h hm => ?_, fun h hm => ?_, fun h hmode hj ha hs => ?_, fun hm hj ha => ?_, fun hm hj ha => ?_, ?_⟩
  · simp only [exec, execJoin, h]
    rw [if_pos (.inr hm)]
  · simp only [exec, execJoin, h]
    rw [if_neg (by simp [hm])]
    refine ⟨fun hlt => ?_, fun hle hc => ?_, fun hle hc => ?_⟩
    · rw [if_pos hlt]
    · rw [if_neg (Nat.not_lt.mpr hle), if_pos hc]
    · rw [if_neg (Nat.not_lt.mpr hle), if_neg (Bool.eq_false_iff.mp hc)]
  · have hrow := exec_joinAck h hmode hj ha hs
    refine ⟨fun hr => ?_, fun hr hre => ?_, fun hr hre => ?_, fun hr => ?_, fun hr => ?_⟩
    · rw [hrow, hr]
      rfl
    · rw [hrow, hr]
      exact congrArg _ (if_pos hre)
    · rw [hrow, hr]
      exact congrArg _ (if_neg (Bool.eq_false_iff.mp hre))
    · rw [hrow, hr]
      rfl
    · obtain ⟨n, hn⟩ := Nat.exists_eq_add_of_lt hr
      rw [hrow, show msgField m 24 1 = n + 3 by omega]
      rfl
  · simp only [exec, execJoinResend]
    rw [if_pos (by simp [hm, hj, ha])]
  · simp only [exec, execHerdJoinTimeout]
    rw [if_pos (by simp [hm, hj, ha])]
  · rintro y z hm hb hh hj hy hz
    simp only [exec, execHerdForm, ← hy, ← hz]
    rw [if_pos (by simp [hm, hb, hh, hj])]

/-- Settles O8: the tick before, at and after its window. -/
theorem tickRow : Obligations.TickRow := by
  unfold Obligations.TickRow
  refine fun st s w hw => ⟨fun hr hh => ?_, fun k d hk hd hmode => ?_⟩
  · simp only [exec, execTick, ← hw]
    rw [if_neg]
    simp only [Bool.or_eq_true, Bool.and_eq_true, inMode_iff]
    rintro (h | ⟨hm, h⟩)
    · exact hr h
    · rw [hh hm] at h
      cases h
  · rw [← windowWork_eq] at hd
    rw [exec_tick hw hmode]
    refine ⟨fun hs => ?_, fun u v hs hu hv => ?_⟩
    · subst hd hk
      unfold doTick
      rw [if_pos hs]
    · subst hd
      rw [doTick_occurs hk hs hu hv]
      refine ⟨fun hr hdv => ?_, fun hr hdv => ?_, ?_⟩
      · rw [if_pos (inMode_iff.mpr hr), if_neg (Bool.eq_false_iff.mp hdv)]
      · rw [if_pos (inMode_iff.mpr hr), if_pos hdv]
      · rintro y hr hy
        rw [if_neg (mt inMode_iff.mp hr), ← hy]

/-- Settles O9: the branches of HERD_JOIN, HERD_LEAVE and FRAME_POLICY. -/
theorem herdCommands : Obligations.HerdCommands := by
  unfold Obligations.HerdCommands
  rintro s src c w rfl
  refine ⟨fun h hl => ?_, ?_, ?_, fun h h0 => ?_, fun h h0 => ?_, fun h hm => ?_, fun p g m k h hm hp hk => ?_⟩
  · have hl' : (running c s).boot.straps.linksplit = 6 := hl
    simp only [exec, execHerdJoin, runCmd_runs h]
    rw [if_pos hl']
  · rintro a n off r h rfl rfl hb hd
    simp only [exec, execHerdJoin, runCmd_fails h (checkRun_plan h hb hd)]
  · rintro a n b h hl rfl rfl rfl
    have hl' : (running c s).boot.straps.linksplit ≠ 6 := hl
    simp only [exec, execHerdJoin, runCmd_runs h]
    rw [if_neg hl']
    refine ⟨fun hb => ?_, ?_⟩
    · rw [if_pos hb]
    · rintro p ds did z hb hp hds hdid hz
      simp only [← hp, ← hds, ← hdid, ← hz]
      rw [if_neg (Bool.eq_false_iff.mp hb)]
      refine ⟨fun hne h0 => ?_, fun hne h0 hd => ?_, fun h => ?_⟩
      · rw [if_pos ⟨hne, .inl h0⟩, if_pos h0]
      · rw [if_pos ⟨hne, .inr hd⟩, if_neg h0]
      · rw [if_neg]
        rintro ⟨hne, hx⟩
        obtain he | ⟨h0, hd⟩ := h
        · exact hne he
        · exact hx.elim h0 (absurd hd)
  · simp only [exec, execHerdLeave, runCmd_runs h, if_pos h0]
    exact ⟨fun hf => by rw [if_pos hf], fun hf => by rw [if_neg (Bool.eq_false_iff.mp hf)]⟩
  · simp only [exec, execHerdLeave, runCmd_runs h, if_neg h0]
    exact ⟨fun hf => by rw [if_pos hf], fun hf => by rw [if_neg (Bool.eq_false_iff.mp hf)]⟩
  · simp only [exec, execFramePolicy, runCmd_runs h, running_herd, hm, Bool.not_false, if_true]
  · simp only [exec, execFramePolicy, runCmd_runs h, hp, ← hk]
    rw [if_neg (by simp [hm])]

end

section
/-! PROOFS. Recovery, tests, reports and the management ports (O54, O55). -/
namespace Sys2Proof.Machine

variable {s : State} {c : FleosCmd} {src : CmdSrc} {p : Nat} {g : MgtHead}

/-- What both telemetry rows serve, from the command's own state (R512). -/
theorem serveTelemetry_eq {k : Bool} {sel len : Nat} {b : List Byte} {z : State} (hs : sel = fieldAt c.desc 17 1)
    (hl : len = fieldAt c.desc 32 4) (hb : b = telemetryBlock s c.src sel len k) (hz : z = { s with free := s.free + 40 }) :
    serveTelemetry k c s = if sel = 5 ∧ len < 128 then finish c.order 4 0x300 128 z
      else if len < b.length then finish c.order 4 0x300 b.length z
      else finish c.order 0 (bitNat k) b.length (deliver c b z) := by
  subst hs hl
  simp only [serveTelemetry, ← hb, ← hz]

/-! ### The rows of a management port: a port that does not run, a defective message, a good one -/

theorem mgtRow_down {cmd : Nat} (k : State → State) (h : mgtUp s p = false) : mgtRow p cmd g k s = .next s := by
  rw [mgtRow, h]
  exact congrArg _ (if_pos rfl)

theorem mgtRow_reserved {cmd : Nat} (k : State → State) (h : mgtUp s p = true) (hr : g.reserved ≠ 0) :
    mgtRow p cmd g k s = .next (mgtReply p cmd 2 g.tag [] s) := by
  simp only [mgtRow, h, Bool.not_true, Bool.false_eq_true, if_false]
  rw [if_pos hr]

theorem mgtRow_good {cmd : Nat} (k : State → State) (h : mgtUp s p = true) (hr : g.reserved = 0) :
    mgtRow p cmd g k s = .next (k s) := by
  simp only [mgtRow, h, Bool.not_true, Bool.false_eq_true, if_false]
  rw [if_neg (not_not.mpr hr)]

/-- An end of DEBUG_RESPONSE with a good token in an unlock state, and any other (R514). -/
theorem debugResponse_good {b : List Byte} (h : mgtUp s p = true) (hr : g.reserved = 0) (ht : tokenGood s b = true)
    (hu : unlockState s = true) : exec (.debugResponse p g b) s = .next (mgtReply p 6 0 g.tag []
      { s with mgt := { s.mgt with challenge := none, unlocked := true, scope := s.mgt.scope ||| fieldAt b 96 1 } }) := by
  simp only [exec, execDebugResponse, mgtRow_good _ h hr, ht, hu, Bool.and_self, Bool.or_true, if_true]

theorem debugResponse_bad {b : List Byte} (h : mgtUp s p = true) (hr : g.reserved = 0)
    (hb : (tokenGood s b && unlockState s) = false) : exec (.debugResponse p g b) s = .next (mgtReply p 6 2 g.tag []
      { s with mgt := { s.mgt with challenge := none, failures := s.mgt.failures + 1 } }) := by
  simp only [exec, execDebugResponse, mgtRow_good _ h hr, hb, Bool.or_false, Bool.false_eq_true, if_false]

/-- Making one stream Insecure leaves the others (R501). -/
theorem insecured_others (st : Nat) (l : List IdeStream) :
    (l.map (fun k => if k.number = st then { k with secure := false } else k)).filter (fun k => k.number != st) =
      l.filter (fun k => k.number != st) := by
  induction l with
  | nil => rfl
  | cons k l ih =>
    rw [List.map_cons]
    by_cases hk : k.number = st
    · rw [if_pos hk, List.filter_cons_of_neg (by simp [hk]), List.filter_cons_of_neg (by simp [hk]), ih]
    · rw [if_neg hk, List.filter_cons_of_pos (by simp [hk]), List.filter_cons_of_pos (by simp [hk]), ih]

theorem insecured_same {st : Nat} {l : List IdeStream} :
    ∀ k ∈ l.map (fun k => if k.number = st then { k with secure := false } else k), k.number = st → k.secure = false := by
  intro k hk hn
  obtain ⟨x, -, rfl⟩ := List.mem_map.mp hk
  split at hn
  · next h => rw [if_pos h]
  · next h => exact absurd hn h

/-- A configuration request of a function that exists, with the domains up (R468). -/
theorem exec_configurationRequest {fn off v : Nat} {wr : Bool} (hm : s.boot.mode ≠ .off) (hr : 2 ≤ s.boot.released)
    (hf : fnUp s fn = true) :
    exec (.configurationRequest fn wr off v) s = .next (if !s.boot.ready then emit (.cfgRetry fn) s
      else if wr then cfgWrite fn off v s
      else
        match cfgValue s fn off with
        | some v => emit (.cfgData fn off v) s
        | none => emit (.cfgData fn off (takeNat (2 ^ 32) s).1) (takeNat (2 ^ 32) s).2) := by
  simp only [exec, execConfigurationRequest]
  rw [if_neg (by simp [inMode, hm, hf]; omega)] <;> rfl

theorem exec_ideKm {st : Nat} {l : Bool} {key : IdeKeying} {w : State} (hm : s.boot.mode ≠ .off) (hr : s.boot.ready = true)
    (hh : s.boot.hold ≠ 1) (hi : ideRoom s st l = true)
    (hw : w = releaseHeld { s with mgt := { s.mgt with ide := s.mgt.ide.filter (fun k => k.number != st)
      ++ [{ number := st, link := l, secure := true, key := key.key, blocks := key.blocks }] } }) :
    exec (.ideKm st l key) s = .next (if (s.mgt.ide.any (fun k => !k.secure) && portUp w) = true then readAllDoorbells w else w) := by
  simp only [exec, execIdeKm, ← hw]
  rw [if_neg (by simp [inMode, hm, hr, hh, hi])]

end Sys2Proof.Machine
end

section
open Sys2Proof.Machine

/-- Settles O54: what each row does when its command runs, and RECOVERY_ENTER when its row is sent again. -/
theorem hostedReports : Obligations.HostedReports := by
  unfold Obligations.HostedReports
  rintro s src c w rfl
  refine ⟨fun h ha => ?_, fun h ha => ?_, fun h1 h2 h3 ha => ?_, fun h => ?_, ?_, ?_, fun h hk => ?_, fun h hk => ?_⟩
  · simp only [exec, execRecoveryEnter, runCmd_runs h, ha, Bool.false_eq_true, if_false]
  · simp only [exec, execRecoveryEnter, runCmd_runs h, ha, if_true]
  · simp only [exec, execRecoveryEnter, runCmd_again h1 h2 h3, ha, if_true]
  · simp only [exec, execRecoveryExit, runCmd_runs h]
  · rintro ds p seed z gs fails y h hp hseed hz hgs hf hy
    simp only [exec, execMemTest, runCmd_runs h, ← hp, ← hseed, ← hz, ← hgs, ← hf, ← hy]
  · intro i k sel len b z hi h hs hl hb hz
    have hrow : exec i s = .next (serveTelemetry k c (running c s)) := by
      simp only [List.mem_cons, List.not_mem_nil, or_false, Prod.mk.injEq] at hi
      obtain ⟨rfl, rfl⟩ | ⟨rfl, rfl⟩ := hi
      · simp only [exec, execTelemetryRead, runCmd_runs h]
      · simp only [exec, execTelemetryCoarse, runCmd_runs h]
    rw [hrow, serveTelemetry_eq hs hl hb hz]
    refine ⟨fun hle h5 => ?_, fun hlt h5 => ?_, fun h5 hlt => ?_⟩
    · rw [if_neg (fun hc => Nat.not_lt.mpr (h5 hc.1) hc.2), if_neg (Nat.not_lt.mpr hle)]
    · rw [if_neg (fun hc => Nat.not_lt.mpr (h5 hc.1) hc.2), if_pos hlt]
    · rw [if_pos ⟨h5, hlt⟩]
  · simp only [exec, execAttestQuote, runCmd_runs h, hk, if_true]
  · simp only [exec, execAttestQuote, runCmd_runs h, hk, Bool.false_eq_true, if_false]

/-- Settles O55: the rows of the ports, of MCTP control, of IDE and of the configuration space. -/
theorem mgtRows : Obligations.MgtRows := by
  unfold Obligations.MgtRows
  intro s p g
  refine ⟨?_, ?_, fun h hr => ⟨?_, ?_, ?_, ?_, ?_, ?_, ?_, ?_, ?_, ?_, ?_, ?_, fun b => debugResponse_good h hr, ?_⟩,
    fun h => ⟨?_, ?_, ?_, ?_, ?_, ?_⟩, ?_, ?_, ?_⟩
  · intro h bs n m i hi
    simp only [List.mem_cons, List.not_mem_nil, or_false] at hi
    obtain rfl | rfl | rfl | rfl | rfl | rfl | rfl | rfl | rfl | rfl | rfl | rfl := hi
    · simp only [exec, execDescriptor, mgtRow_down _ h]
    · simp only [exec, execFetch, mgtRow_down _ h]
    · simp only [exec, execMgtState, mgtRow_down _ h]
    · simp only [exec, execMgtReset, mgtRow_down _ h]
    · simp only [exec, execDebugChallenge, mgtRow_down _ h]
    · simp only [exec, execDebugResponse, mgtRow_down _ h]
    · simp only [exec, execSetEndpointId, h, Bool.not_false, if_true]
    · simp only [exec, execGetEndpointId, h, Bool.false_eq_true, if_false]
    · simp only [exec, execGetEndpointUuid, h, Bool.false_eq_true, if_false]
    · simp only [exec, execGetMctpVersionSupport, h, Bool.not_false, if_true]
    · simp only [exec, execGetMessageTypeSupport, h, Bool.false_eq_true, if_false]
    · simp only [exec, execDynamicAddressAssignment, h, Bool.false_eq_true, if_false]
  · intro h hr bs n m i c hi
    simp only [List.mem_cons, List.not_mem_nil, or_false, Prod.mk.injEq] at hi
    obtain ⟨rfl, rfl⟩ | ⟨rfl, rfl⟩ | ⟨rfl, rfl⟩ | ⟨rfl, rfl⟩ | ⟨rfl, rfl⟩ | ⟨rfl, rfl⟩ := hi
    · simp only [exec, execDescriptor, mgtRow_reserved _ h hr]
    · simp only [exec, execFetch, mgtRow_reserved _ h hr]
    · simp only [exec, execMgtState, mgtRow_reserved _ h hr]
    · simp only [exec, execMgtReset, mgtRow_reserved _ h hr]
    · simp only [exec, execDebugChallenge, mgtRow_reserved _ h hr]
    · simp only [exec, execDebugResponse, mgtRow_reserved _ h hr]
  · intro bs hc
    simp only [exec, execDescriptor, mgtRow_good _ h hr, hc, if_true]
  · intro bs hc
    simp only [exec, execDescriptor, mgtRow_good _ h hr, hc, Option.isSome_none, Bool.false_eq_true, if_false]
  · intro off n hs
    simp only [exec, execFetch, mgtRow_good _ h hr, hs, if_true]
  · intro off n hs h1 h2 h3
    simp only [exec, execFetch, mgtRow_good _ h hr, hs, Bool.false_eq_true, if_false]
    rw [if_neg (by omega)]
  · intro off n hs hno
    simp only [exec, execFetch, mgtRow_good _ h hr, hs, Bool.false_eq_true, if_false]
    rw [if_pos (by omega)]
  · simp only [exec, execMgtState, mgtRow_good _ h hr]
  · intro d he
    simp only [exec, execMgtReset, mgtRow_good _ h hr, he, Bool.not_false, if_true]
  · intro d he hd
    simp only [exec, execMgtReset, mgtRow_good _ h hr, he, Bool.not_true, Bool.false_eq_true, if_false]
    rw [if_pos hd]
  · intro he
    simp only [exec, execMgtReset, mgtRow_good _ h hr, he, Bool.not_true, Bool.false_eq_true, if_false]
    rw [if_neg (not_not.mpr rfl)]
  · intro n hn
    simp only [exec, execDebugChallenge, mgtRow_good _ h hr, hn, if_true]
  · intro n hn hd
    simp only [exec, execDebugChallenge, mgtRow_good _ h hr, hd, if_true]
    rw [if_neg (Nat.not_le.mpr hn)]
  · intro n hn hd
    simp only [exec, execDebugChallenge, mgtRow_good _ h hr, hd, Bool.false_eq_true, if_false]
    rw [if_neg (Nat.not_le.mpr hn)]
  · intro b hb
    exact debugResponse_bad h hr (Bool.and_eq_false_iff.mpr hb)
  · intro e h0 h255
    simp only [exec, execSetEndpointId, h, Bool.not_true, Bool.false_eq_true, if_false]
    rw [if_neg (by omega)]
  · simp only [exec, execGetEndpointId, h, if_true]
  · simp only [exec, execGetEndpointUuid, h, if_true]
  · intro t ht
    simp only [exec, execGetMctpVersionSupport, h, Bool.not_true, Bool.false_eq_true, if_false]
    rw [if_pos ht]
  · simp only [exec, execGetMessageTypeSupport, h, if_true]
  · intro a
    simp only [exec, execDynamicAddressAssignment, h, if_true]
  · intro st l key w hm hr hh hi hw
    simpa only [Bool.and_eq_true] using exec_ideKm hm hr hh hi hw
  · intro st h
    simp only [exec, execIdeIntegrityFailure, h, if_true]
    exact ⟨_, rfl, rfl, insecured_same, insecured_others st _, rfl, rfl⟩
  · intro fn wr off v hm hr hf
    refine ⟨fun hn => ?_, fun hy => ?_, fun x hy hx => ?_⟩
    · simp only [exec_configurationRequest hm hr hf, hn, Bool.not_false, if_true]
    · simp only [exec_configurationRequest hm hr hf, hy, Bool.not_true, Bool.false_eq_true, if_false, if_true]
    · simp only [exec_configurationRequest hm hr hf, hy, hx, Bool.not_true, Bool.false_eq_true, if_false]

end
